-- ==== Sys2Proof/Word.lean ====
section
/-! DEFINITION. The word of the machine: registers, latches, addresses and memory cells are all one byte
(00_scope.md R3, R4; 10_state.md R10, R12). -/

namespace Sys2Proof

/-- An 8-bit value, bit 0 the least significant (R4). Sums on it are modulo 256. -/
abbrev Byte := BitVec 8

end Sys2Proof
end

