-- ==== Sys2Proof/Syntax.lean ====
section
/-! DEFINITION. The instructions: one constructor per row of spec/opcode_table.json (30_encoding.md R64).
A constructor carries every bit of its encoding, the unused ones too (`u`): the hardware ignores them in every
decision (R65) and keeps them in the opcode latch (10_state.md R17), so a meaning needs them for `IR` (log 8). -/

namespace Sys2Proof

/-- A general register, named by a 2-bit field of the opcode byte (R63). -/
inductive Reg where
  | r0
  | r1
  | r2
  | r3
  deriving DecidableEq, Repr

/-- The sixteen rows of the opcode table. `a`, `b` are the register fields, `u` the unused bits of the low nibble,
`k` the operand byte of the four memops. -/
inductive Instr where
  /-- `and rA rB`, code 0 (42_alu.md R161) -/
  | and (a b : Reg)
  /-- `or rA rB`, code 1 (R162) -/
  | or (a b : Reg)
  /-- `xor rA rB`, code 2 (R163) -/
  | xor (a b : Reg)
  /-- `add rA rB`, code 3 (R164) -/
  | add (a b : Reg)
  /-- `sub rA rB`, code 4 (R165) -/
  | sub (a b : Reg)
  /-- `notb rB`, code 5 (R166) -/
  | notb (u : BitVec 2) (b : Reg)
  /-- `shiftb rB`, code 6 (R167) -/
  | shiftb (u : BitVec 2) (b : Reg)
  /-- `lshiftb rB`, code 7 (R168) -/
  | lshiftb (u : BitVec 2) (b : Reg)
  /-- `load rB $var`, code 8 (43_load_wrt.md R181) -/
  | load (u : BitVec 2) (b : Reg) (k : Byte)
  /-- `wrt rB $var`, code 9 (R182) -/
  | wrt (u : BitVec 2) (b : Reg) (k : Byte)
  /-- `jmpz rB #loc`, code 10 (44_jmpz_jmp.md R191) -/
  | jmpz (u : BitVec 2) (b : Reg) (k : Byte)
  /-- `jmp #loc`, code 11 (R192) -/
  | jmp (u : BitVec 4) (k : Byte)
  /-- `loadl rA rB`, code 12 (45_loadl_wrtl.md R201) -/
  | loadl (a b : Reg)
  /-- `wrtl rA rB`, code 13 (R202) -/
  | wrtl (a b : Reg)
  /-- code 14, not assigned (46_halt_reserved.md R211) -/
  | reserved14 (u : BitVec 4)
  /-- `halt`, code 15 (R210) -/
  | halt (u : BitVec 4)
  deriving DecidableEq, Repr

end Sys2Proof
end

