-- ==== Sys2Proof/Decode.lean ====
section
/-! DEFINITION. The fields of the opcode byte (30_encoding.md R61), the decoder (R64, R69), the encoder (R62), and
the table's numbering of an instruction's bits.

The decoder is total: every byte is an opcode byte of one of the sixteen codes (R69). What it rejects, by name, is a
list of bytes too short to hold an instruction, which no fetch from memory gives. -/

namespace Sys2Proof

/-! ## Fields -/

/-- `op = IR[7:4]`, the operation code (R61). -/
def opField (o : Byte) : BitVec 4 := o.extractLsb' 4 4

/-- `IR[3:2]`, the A field, or two unused bits (R61, R62). -/
def aBits (o : Byte) : BitVec 2 := o.extractLsb' 2 2

/-- `IR[1:0]`, the B field (R61). -/
def bBits (o : Byte) : BitVec 2 := o.extractLsb' 0 2

/-- `IR[3:0]`, the low nibble, unused in formats M and N (R62). -/
def lowNibble (o : Byte) : BitVec 4 := o.extractLsb' 0 4

/-- A 2-bit field read as an unsigned register index (R63). -/
def Reg.ofBits (v : BitVec 2) : Reg :=
  match v with
  | 0#2 => .r0
  | 1#2 => .r1
  | 2#2 => .r2
  | _ => .r3

/-- The index of a register as a 2-bit field (R63). -/
def Reg.toBits : Reg → BitVec 2
  | .r0 => 0#2
  | .r1 => 1#2
  | .r2 => 2#2
  | .r3 => 3#2

/-- The register the A field of an opcode byte names. -/
def aReg (o : Byte) : Reg := Reg.ofBits (aBits o)

/-- The register the B field of an opcode byte names. -/
def bReg (o : Byte) : Reg := Reg.ofBits (bBits o)

/-- An opcode byte from its code and its two 2-bit fields: `op * 16 + a * 4 + b` (R61). -/
def opcodeByte (op : BitVec 4) (hi lo : BitVec 2) : Byte := op ++ hi ++ lo

/-- Format RR, `oooo aa bb` (R62). -/
def byteRR (op : BitVec 4) (a b : Reg) : Byte := opcodeByte op a.toBits b.toBits

/-- Formats R and RM, `oooo uu bb` (R62). -/
def byteR (op : BitVec 4) (u : BitVec 2) (b : Reg) : Byte := opcodeByte op u b.toBits

/-- Formats M and N, `oooo uu uu` (R62). -/
def byteN (op : BitVec 4) (u : BitVec 4) : Byte := op ++ u

/-- The codes whose instruction has an operand byte: the memops, 8 to 11 (R60, R66 `SECOND`). -/
def hasSecond (op : BitVec 4) : Bool :=
  match op.toNat with
  | 8 => true
  | 9 => true
  | 10 => true
  | 11 => true
  | _ => false

/-! ## Decoder -/

/-- Why a list of bytes holds no instruction. -/
inductive DecodeError where
  /-- the list is empty -/
  | noOpcodeByte
  /-- the list ends where the operand byte of a memop should stand (R60) -/
  | noOperandByte
  deriving DecidableEq, Repr

/-- The instruction with opcode byte `o` and, for a memop, operand byte `k` (R64). -/
def instrOf (o k : Byte) : Instr :=
  match (opField o).toNat with
  | 0 => .and (aReg o) (bReg o)
  | 1 => .or (aReg o) (bReg o)
  | 2 => .xor (aReg o) (bReg o)
  | 3 => .add (aReg o) (bReg o)
  | 4 => .sub (aReg o) (bReg o)
  | 5 => .notb (aBits o) (bReg o)
  | 6 => .shiftb (aBits o) (bReg o)
  | 7 => .lshiftb (aBits o) (bReg o)
  | 8 => .load (aBits o) (bReg o) k
  | 9 => .wrt (aBits o) (bReg o) k
  | 10 => .jmpz (aBits o) (bReg o) k
  | 11 => .jmp (lowNibble o) k
  | 12 => .loadl (aReg o) (bReg o)
  | 13 => .wrtl (aReg o) (bReg o)
  | 14 => .reserved14 (lowNibble o)
  | _ => .halt (lowNibble o)

/-- Read one instruction from the front of a list of bytes, lowest address first (R45, R60). -/
def decode : List Byte → Except DecodeError (Instr × List Byte)
  | [] => .error .noOpcodeByte
  | o :: rest =>
    if hasSecond (opField o) then
      match rest with
      | [] => .error .noOperandByte
      | k :: rest' => .ok (instrOf o k, rest')
    else .ok (instrOf o 0, rest)

/-- The two bytes of an instruction whose bits are `w`, bit 0 the least significant bit of the first byte; bits
from `nbits` up are 0. Two bytes are the longest instruction (R60). -/
def tableBytes (nbits w : Nat) : List Byte :=
  let v := w % 2 ^ nbits
  [BitVec.ofNat 8 v, BitVec.ofNat 8 (v / 256)]

/-- The instruction the decoder reads from the bits `w` of a table row of `nbits` bits. -/
def decodeTableWord (nbits w : Nat) : Option Instr :=
  match decode (tableBytes nbits w) with
  | .ok (i, _) => some i
  | .error _ => none

/-! ## Encoder -/

/-- The opcode byte of an instruction (R61, R62, R64). -/
def Instr.opcode : Instr → Byte
  | .and a b => byteRR 0#4 a b
  | .or a b => byteRR 1#4 a b
  | .xor a b => byteRR 2#4 a b
  | .add a b => byteRR 3#4 a b
  | .sub a b => byteRR 4#4 a b
  | .notb u b => byteR 5#4 u b
  | .shiftb u b => byteR 6#4 u b
  | .lshiftb u b => byteR 7#4 u b
  | .load u b _ => byteR 8#4 u b
  | .wrt u b _ => byteR 9#4 u b
  | .jmpz u b _ => byteR 10#4 u b
  | .jmp u _ => byteN 11#4 u
  | .loadl a b => byteRR 12#4 a b
  | .wrtl a b => byteRR 13#4 a b
  | .reserved14 u => byteN 14#4 u
  | .halt u => byteN 15#4 u

/-- The bytes of an instruction, opcode byte first (R45, R60). -/
def encode (i : Instr) : List Byte :=
  match i with
  | .and _ _ => [i.opcode]
  | .or _ _ => [i.opcode]
  | .xor _ _ => [i.opcode]
  | .add _ _ => [i.opcode]
  | .sub _ _ => [i.opcode]
  | .notb _ _ => [i.opcode]
  | .shiftb _ _ => [i.opcode]
  | .lshiftb _ _ => [i.opcode]
  | .load _ _ k => [i.opcode, k]
  | .wrt _ _ k => [i.opcode, k]
  | .jmpz _ _ k => [i.opcode, k]
  | .jmp _ k => [i.opcode, k]
  | .loadl _ _ => [i.opcode]
  | .wrtl _ _ => [i.opcode]
  | .reserved14 _ => [i.opcode]
  | .halt _ => [i.opcode]

end Sys2Proof
end

