-- ==== Sys2Proof/Machine/State.lean ====
section
/-! DEFINITION. The state of the machine as plain data, all of it: architectural state (`regs`, `pc`, `mem`,
`halt`) and micro state (10_state.md R10 to R25), the launch parameters, the state after reset (R29), and the
reasons a step can stop. -/

namespace Sys2Proof.Machine

/-- The four general registers, 8 bits each, none hard-wired (R10). -/
structure Regs where
  r0 : Byte
  r1 : Byte
  r2 : Byte
  r3 : Byte
  deriving DecidableEq, Repr

/-- The memory as the list of its cells that are not 0, addresses strictly rising (R16, R40; log 2). Read, write and
the canonical form are in Machine/Ops.lean. -/
structure Memory where
  cells : List Host.Cell
  deriving DecidableEq, Repr

/-- The value of a handshake channel (R23, R92). -/
inductive Channel where
  | idle
  | requested
  | acknowledged
  deriving DecidableEq, Repr

/-- The source of a register write-back, `RW_SRC` (R24). -/
inductive RwSrc where
  | alu
  | ext
  deriving DecidableEq, Repr

/-- The states of the control sequencer, 0 to 20 (R19, R144). -/
inductive Seq where
  /-- fetch (41_control_sequencer.md R121) -/
  | s0
  /-- ask for the write-back of an ALU result (R122) -/
  | s1
  /-- bookmark (R123) -/
  | s2
  /-- register-held address (R124) -/
  | s3
  /-- step to the operand byte (R125) -/
  | s4
  /-- latch the operand byte (R126) -/
  | s5
  /-- go to the pending address (R127) -/
  | s6
  /-- latch the byte there and dispatch (R128) -/
  | s7
  /-- ask for the write-back of a loaded byte (R129) -/
  | s8
  /-- ask for the store (R130) -/
  | s9
  /-- store done (R131) -/
  | s10
  /-- go back to the bookmark (R132) -/
  | s11
  /-- first step past the instruction (R133) -/
  | s12
  /-- first step done (R134) -/
  | s13
  /-- second step past the instruction (R135) -/
  | s14
  /-- jump (R136) -/
  | s15
  /-- jump done (R137) -/
  | s16
  /-- last step done (R138) -/
  | s17
  /-- halt (R139) -/
  | s18
  /-- ALU write-back done, step on (R140) -/
  | s19
  /-- load write-back done (R141) -/
  | s20
  deriving DecidableEq, Repr

/-- The whole state of the machine between two ticks. -/
structure State where
  /-- `R0..R3` (R10) -/
  regs : Regs
  /-- `PC` (R12) -/
  pc : Byte
  /-- `HALT` (R13) -/
  halt : Bool
  /-- `MEM` (R16) -/
  mem : Memory
  /-- operand latch `A` (R14) -/
  latchA : Byte
  /-- operand latch `B` (R14) -/
  latchB : Byte
  /-- `ALU_OUT` (R15) -/
  aluOut : Byte
  /-- `IR`, the opcode latch, the whole opcode byte (R17) -/
  ir : Byte
  /-- `RDATA` (R18) -/
  rdata : Byte
  /-- `SEQ` (R19) -/
  seq : Seq
  /-- `BM`, the bookmark (R20) -/
  bm : Byte
  /-- `PADDR`, the pending address (R21) -/
  paddr : Byte
  /-- `PVAL`, the pending operand value (R22) -/
  pval : Byte
  /-- `RW`, the register write-back channel (R23) -/
  rw : Channel
  /-- `PCS`, the program counter set channel (R23) -/
  pcs : Channel
  /-- `PCI`, the program counter increment channel (R23) -/
  pci : Channel
  /-- `ST`, the memory store channel (R23) -/
  st : Channel
  /-- `RW_SRC` (R24) -/
  rwSrc : RwSrc
  /-- `PCS_VAL` (R25) -/
  pcsVal : Byte
  deriving DecidableEq, Repr

/-- The architectural state: what an instruction-level claim speaks of (10_state.md, before R10; R28). -/
structure Arch where
  regs : Regs
  pc : Byte
  mem : Memory
  halt : Bool
  deriving DecidableEq, Repr

/-- The architectural part of a state. -/
def State.arch (s : State) : Arch :=
  { regs := s.regs, pc := s.pc, mem := s.mem, halt := s.halt }

/-- The open parameters of a launch: `R_INIT` and `MEM_INIT` (00_scope.md R3, D3, D6). A claim about runs
quantifies over it, or fixes it in its precondition. -/
structure Launch where
  rInit : Regs
  memInit : Memory
  deriving DecidableEq, Repr

/-- The state after reset under a launch, every field as the table of R29 gives it. -/
def State.launch (l : Launch) : State :=
  { regs := l.rInit
    pc := 0
    halt := false
    mem := l.memInit
    latchA := 0
    latchB := 0
    aluOut := 0
    ir := 0
    rdata := 0
    seq := .s0
    bm := 0
    paddr := 0
    pval := 0
    rw := .idle
    pcs := .idle
    pci := .idle
    st := .idle
    rwSrc := .alu
    pcsVal := 0 }

/-- The launch of `State.reset`: registers 0 and memory with nothing listed. DESIGN CHOICE, unsafe: the spec leaves
both open (log 1, log 2). -/
def Launch.plain : Launch :=
  { rInit := { r0 := 0, r1 := 0, r2 := 0, r3 := 0 }, memInit := { cells := [] } }

/-- The machine right after reset, under the plain launch (R29, R240; log 1, log 2). -/
def State.reset : State := State.launch Launch.plain

/-- Why a step stops with a fault. -/
inductive Fault where
  /-- Raised by `step` on a state with `HALT = 1`: no tick happens there (40_tick_modules.md R101, R232). Safe: a
  claim about a next state says nothing of a halted machine (log 5). -/
  | halted
  deriving DecidableEq, Repr

/-- Why a step refuses. -/
inductive Refusal where
  /-- Raised by an arm of `exec` whose instruction has no meaning. No arm of this model does. Safe. -/
  | notModelled (mnemonic : String)
  /-- Raised by `step` if the bytes at the program counter held no instruction. They always do (30_encoding.md R69),
  since the fetch gives two bytes, so no step raises it. Safe. -/
  | truncatedFetch
  deriving DecidableEq, Repr

end Sys2Proof.Machine
end

