-- ==== Sys2Proof/Machine/Ops.lean ====
section
/-! DEFINITION. The named operations over registers, memory and channels.

TAKING AN EXCEPTION: there is none to take. The machine raises no exception, takes no interrupt, saves no state,
has no vector and no return from a trap (60_exceptions.md R220, R222, R224, R225), so no operation here does. -/

namespace Sys2Proof.Machine

/-! ## General registers -/

/-- Read of `x[i]` (00_scope.md R5). -/
def Regs.get (x : Regs) : Reg → Byte
  | .r0 => x.r0
  | .r1 => x.r1
  | .r2 => x.r2
  | .r3 => x.r3

/-- Write of `x[i] <- v` (00_scope.md R5). No register is hard-wired (10_state.md R10). -/
def Regs.set (x : Regs) (i : Reg) (v : Byte) : Regs :=
  match i with
  | .r0 => { x with r0 := v }
  | .r1 => { x with r1 := v }
  | .r2 => { x with r2 := v }
  | .r3 => { x with r3 := v }

/-! ## Memory -/

/-- What an address that no cell lists reads as. DESIGN CHOICE, unsafe (log 2): the spec leaves it to `MEM_INIT`. -/
def unlistedByte : Byte := 0

/-- The byte of the first cell at address `a`. -/
def cellsRead : List Host.Cell → Nat → Byte
  | [], _ => unlistedByte
  | (x, v) :: rest, a => if x = a then v else cellsRead rest a

/-- The cells without those at address `a`. -/
def cellsErase : List Host.Cell → Nat → List Host.Cell
  | [], _ => []
  | (x, v) :: rest, a => if x = a then cellsErase rest a else (x, v) :: cellsErase rest a

/-- The cells with `(a, v)` put before the first cell at a higher address. -/
def cellsInsert : List Host.Cell → Nat → Byte → List Host.Cell
  | [], a, v => [(a, v)]
  | (x, w) :: rest, a, v => if a < x then (a, v) :: (x, w) :: rest else (x, w) :: cellsInsert rest a v

/-- Every cell lies at or above `lo` and below 256, holds a byte other than the unlisted one, and the addresses
rise strictly. -/
def cellsWf : Nat → List Host.Cell → Bool
  | _, [] => true
  | lo, (x, v) :: rest => decide (lo ≤ x) && decide (x < 256) && (v != unlistedByte) && cellsWf (x + 1) rest

/-- The canonical form of a memory: equal memories are equal data. -/
def Memory.wf (m : Memory) : Bool := cellsWf 0 m.cells

/-- `MemRead(a, 1)` (20_memory.md R44). Every address is legal (R40). -/
def Memory.read (m : Memory) (a : Byte) : Byte := cellsRead m.cells a.toNat

/-- `MemWrite(a, 1, v)` (R44). Writing the unlisted byte removes the cell. -/
def Memory.write (m : Memory) (a v : Byte) : Memory :=
  let rest := cellsErase m.cells a.toNat
  { cells := if v = unlistedByte then rest else cellsInsert rest a.toNat v }

/-- Bytes stored at `a`, `a + 1`, ... as a loader puts an image into memory (R42, R55). Addresses wrap (R43). -/
def Memory.loadImage (m : Memory) (a : Byte) : List Byte → Memory
  | [] => m
  | v :: rest => (m.write a v).loadImage (a + 1) rest

/-! ## Channels -/

/-- What a channel becomes when its module runs (40_tick_modules.md R93). -/
def Channel.advance : Channel → Channel
  | .idle => .idle
  | .requested => .acknowledged
  | .acknowledged => .idle

/-- The service rule of R93, the same for all four channels: an acknowledgement clears, a request performs `action`
and is acknowledged, an idle channel does nothing. `ch` reads the channel and `put` writes it. -/
def service (ch : State → Channel) (put : Channel → State → State) (action : State → State) (s : State) : State :=
  match ch s with
  | .idle => s
  | .requested => put .acknowledged (action s)
  | .acknowledged => put .idle s

/-- Write of the channel `RW`. -/
def putRw (c : Channel) (s : State) : State := { s with rw := c }

/-- Write of the channel `PCS`. -/
def putPcs (c : Channel) (s : State) : State := { s with pcs := c }

/-- Write of the channel `PCI`. -/
def putPci (c : Channel) (s : State) : State := { s with pci := c }

/-- Write of the channel `ST`. -/
def putSt (c : Channel) (s : State) : State := { s with st := c }

/-- A channel with a request withdrawn (used by `placeAtFetch` alone). -/
def Channel.withdraw : Channel → Channel
  | .idle => .idle
  | .requested => .idle
  | .acknowledged => .acknowledged

/-! ## Fetch -/

/-- The state stands between two instructions: not halted, the sequencer in state 0, no request outstanding
(41_control_sequencer.md R146: at the start of a tick of state 0 no channel is `Requested`). -/
def State.atFetch (s : State) : Bool :=
  !s.halt && (s.seq == .s0) && (s.rw != .requested) && (s.pcs != .requested) && (s.pci != .requested)
    && (s.st != .requested)

/-- The byte at `PC` and the one after it, modulo 256 (20_memory.md R43, R45, R52): the longest instruction. -/
def fetchBytes (s : State) : List Byte := [s.mem.read s.pc, s.mem.read (s.pc + 1)]

/-- `s` with the given bytes stored from `PC` on, and ready to fetch. In a state that is ready already (after reset,
after an instruction) only memory changes (log 7). -/
def placeAtFetch (s : State) (bytes : List Byte) : State :=
  { s with
    mem := s.mem.loadImage s.pc bytes
    halt := false
    seq := .s0
    rw := s.rw.withdraw
    pcs := s.pcs.withdraw
    pci := s.pci.withdraw
    st := s.st.withdraw }

end Sys2Proof.Machine
end

