-- ==== Sys2Proof/Machine/Flags.lean ====
section
/-! DEFINITION. The flags of the machine: there is one, `HALT` (10_state.md R13). There are no condition codes:
no instruction computes a carry, an overflow, a zero or a negative flag (R13, 42_alu.md R169). -/

namespace Sys2Proof.Machine

/-- `HALT <- 1` (R13, R139): set by the sequencer in state 18 and by nothing else. -/
def raiseHalt (s : State) : State := { s with halt := true }

end Sys2Proof.Machine
end

