-- ==== Sys2Proof/Config.lean ====
section
/-! DEFINITION. The open parameters of the machine that no tick changes (00_scope.md R3, 10_state.md R30).
Each is an opaque constant: nothing in Lean can evaluate it, so a theorem holds for every value of it.
`R_INIT` and `MEM_INIT` are not here: they are the fields of `Machine.Launch`. -/

namespace Sys2Proof

/-- The two operand orders of `sub` (42_alu.md R165). -/
inductive SubOrder where
  | aMinusB
  | bMinusA
  deriving DecidableEq, Repr, Inhabited

namespace Config

/-- `SUB_ORDER`, OPEN (R3, D7; log 3): the spec recommends `A_MINUS_B` and does not fix it. -/
opaque subOrder : SubOrder

/-- `DIAG_ENABLE`, OPEN (R3, D19; log 10). Read by the output `diag` alone. -/
opaque diagEnable : Bool

/-- `DIAG_ADDR`, OPEN (R3, D19; log 10). Read by the output `diag` alone. -/
opaque diagAddr : Byte

end Config

end Sys2Proof
end

