-- ==== Sys2Proof/Machine/Arith.lean ====
section
/-! DEFINITION. The arithmetic unit's operations on bytes (40_tick_modules.md R97, 42_alu.md R169). None produces a
flag; a carry, a borrow or a bit shifted out is lost. -/

namespace Sys2Proof.Machine

/-- SUB under an operand order (R97, R165): `A - B` or `B - A`, modulo 256. -/
def subBy (order : SubOrder) (a b : Byte) : Byte :=
  match order with
  | .aMinusB => a - b
  | .bMinusA => b - a

/-- Logical shift right by 1, 0 into bit 7 (R167). -/
def shiftRight1 (v : Byte) : Byte := v >>> 1

/-- Logical shift left by 1, 0 into bit 0 (R168). -/
def shiftLeft1 (v : Byte) : Byte := v <<< 1

/-- What module 3 computes from the latches for an operation code (R97). Codes 8 to 15 yield 0 (R170). -/
def aluResult (order : SubOrder) (op : BitVec 4) (a b : Byte) : Byte :=
  match op.toNat with
  | 0 => a &&& b
  | 1 => a ||| b
  | 2 => a ^^^ b
  | 3 => a + b
  | 4 => subBy order a b
  | 5 => ~~~b
  | 6 => shiftRight1 b
  | 7 => shiftLeft1 b
  | _ => 0

end Sys2Proof.Machine
end

