-- ==== Sys2Proof/Machine/Operands.lean ====
section
/-! DEFINITION. The operand forms (30_encoding.md R63) and the decoder's predicates on the operation code (R66). -/

namespace Sys2Proof.Machine

/-! ## Predicates on the operation code (R66) -/

/-- `HIGH(IR)`: bit 7 is set. -/
def isHigh (o : Byte) : Bool := o.getLsbD 7

/-- `REGIND(IR)`: codes 12 and 13. -/
def isRegInd (op : BitVec 4) : Bool :=
  match op.toNat with
  | 12 => true
  | 13 => true
  | _ => false

/-- `TWO(IR)`: the codes of the form `op rA rB`, which load both latches (40_tick_modules.md R96). -/
def needsTwo (op : BitVec 4) : Bool :=
  match op.toNat with
  | 0 => true
  | 1 => true
  | 2 => true
  | 3 => true
  | 4 => true
  | 12 => true
  | 13 => true
  | _ => false

/-- `ONE(IR)`: the codes with register B only, which load latch `B` (R96). -/
def needsOne (op : BitVec 4) : Bool :=
  match op.toNat with
  | 5 => true
  | 6 => true
  | 7 => true
  | 8 => true
  | 9 => true
  | 10 => true
  | _ => false

/-! ## Addresses -/

/-- `(p + n) mod 256` (20_memory.md R43). -/
def pcPlus (p n : Byte) : Byte := p + n

/-- The byte after the opcode byte: the operand byte of a memop, and the byte `halt` and code 14 read as if it were
one (30_encoding.md R70). -/
def operandByte (s : State) : Byte := s.mem.read (pcPlus s.pc 1)

/-- The effective address of `load` and `wrt`: the operand byte as it stands (43_load_wrt.md R180). -/
def absoluteAddress (k : Byte) : Byte := k

/-- The effective address of `loadl` and `wrtl`: the whole of register A (45_loadl_wrtl.md R200). -/
def registerAddress (a : Reg) (s : State) : Byte := s.regs.get a

/-- The target of a jump: the byte at the address the operand byte gives (44_jmpz_jmp.md R190). -/
def jumpTarget (k : Byte) (s : State) : Byte := s.mem.read k

end Sys2Proof.Machine
end

