-- ==== Sys2Proof/Machine/Modules.lean ====
section
/-! DEFINITION. The tick-level model, first half: modules 1 to 5 (40_tick_modules.md R95 to R99). Each is a function
of the state as the modules before it left it in the same tick (R91). -/

namespace Sys2Proof.Machine

/-- The value a serviced write-back commits: `ALU_OUT` or `PVAL` (R95, 10_state.md R24). -/
def writeBackValue (s : State) : Byte :=
  match s.rwSrc with
  | .alu => s.aluOut
  | .ext => s.pval

/-- Module 1, register write-back (R95): the destination is always the B field. -/
def writeBack (s : State) : State :=
  service State.rw putRw (fun t => { t with regs := t.regs.set (bReg t.ir) (writeBackValue t) }) s

/-- Module 2, operand routing (R96), by the code in the opcode latch, in every tick. -/
def routeOperands (s : State) : State :=
  let op := opField s.ir
  { s with
    latchA := if needsTwo op then s.regs.get (aReg s.ir) else s.latchA
    latchB := if needsTwo op || needsOne op then s.regs.get (bReg s.ir) else s.latchB }

/-- Module 3, arithmetic unit (R97), in every tick. -/
def computeAlu (s : State) : State :=
  { s with aluOut := aluResult Config.subOrder (opField s.ir) s.latchA s.latchB }

/-- Module 4, program counter (R98): the set is serviced before the increment, and the increment wraps. The display
hook changes no state; its trigger is `tickPorts`. -/
def programCounter (s : State) : State :=
  service State.pci putPci (fun t => { t with pc := pcPlus t.pc 1 })
    (service State.pcs putPcs (fun t => { t with pc := t.pcsVal }) s)

/-- Module 5's read: the byte at the current counter address as read data (R99). -/
def exposeRead (s : State) : State := { s with rdata := s.mem.read s.pc }

/-- Module 5, memory port (R99): the store, of latch `B` at `PC`, before the read. -/
def memoryPort (s : State) : State :=
  exposeRead (service State.st putSt (fun t => { t with mem := t.mem.write t.pc t.latchB }) s)

/-- Modules 1 to 5 in their order (R91): what the sequencer sees. -/
def datapath (s : State) : State :=
  memoryPort (programCounter (computeAlu (routeOperands (writeBack s))))

end Sys2Proof.Machine
end

