-- ==== Sys2Proof/Machine/Retire.lean ====
section
/-! DEFINITION. The shared operations the meanings are made of. A meaning gives the net effect of one instruction
from the tick in which the sequencer is in state 0 to the next such tick (00_scope.md R6), on the whole state: the
architectural effect its rule states, and the micro state its path leaves (41_control_sequencer.md R145,
70_reset_and_hazards.md R252). It assumes a state in which `State.atFetch` holds (log 4). -/

namespace Sys2Proof.Machine

/-- The tick of state 0: module 2 still routes under the old opcode latch, then the sequencer latches the opcode
byte (R121, R252 row `IR`). -/
def latchOpcode (o : Byte) (s : State) : State := { routeOperands s with ir := o }

/-- What modules 2, 3 and 5 leave in the latches `A`, `B`, `ALU_OUT` and in `RDATA` in the last tick of an
instruction, when registers, memory and `PC` have their final values (R91, R96, R97, R99). -/
def settle (s : State) : State := exposeRead (computeAlu (routeOperands s))

/-- The four channels and the sequencer's state as a path leaves them. -/
def park (q : Seq) (pcs pci : Channel) (s : State) : State :=
  { s with seq := q, rw := .idle, pcs := pcs, pci := pci, st := .idle }

/-- The path 0, 1, 19, 17 of an ALU instruction (42_alu.md R160): commit `v` to register B, step by one byte. -/
def retireAlu (o : Byte) (b : Reg) (v : Byte) (s : State) : State :=
  settle (park .s0 .idle .acknowledged
    { latchOpcode o s with regs := s.regs.set b v, pc := pcPlus s.pc 1, rwSrc := .alu })

/-- The states 2 to 7 of codes 8 to 15 (R123 to R128): the bookmark is set, the byte at the pending address `ea` is
latched as pending operand value. -/
def visit (o ea : Byte) (s : State) : State :=
  { latchOpcode o s with bm := s.pc, paddr := ea, pval := s.mem.read ea }

/-- The write-back of the pending operand value (states 8 and 20, R129, R141). -/
def commitPending (b : Reg) (s : State) : State :=
  { s with regs := s.regs.set b s.pval, rwSrc := .ext }

/-- The store of register B at the pending address (states 9 and 10, R130, R131). -/
def storePending (b : Reg) (s : State) : State :=
  { s with mem := s.mem.write s.paddr (s.regs.get b) }

/-- The way back to the bookmark and `n` bytes past it (states 11, 12, 17, and 13, 14 for a memop; R132 to R135,
R138). -/
def retireNext (n : Byte) (s : State) : State :=
  settle (park .s0 .idle .acknowledged { s with pc := pcPlus s.bm n, pcsVal := s.bm })

/-- The jump to the pending operand value (states 15 and 16, R136, R137). -/
def retireJump (s : State) : State :=
  settle (park .s0 .acknowledged .idle { s with pc := s.pval, pcsVal := s.pval })

end Sys2Proof.Machine
end

