-- ==== Sys2Proof/Machine/Alu.lean ====
section
/-! DEFINITION. The ALU instructions, codes 0 to 7 (42_alu.md). Both operands are read before anything is written,
the result goes to register B, `PC` steps by one byte, no flag is written (R160). -/

namespace Sys2Proof.Machine

/-- `and rA rB` (R161) -/
def execAnd (a b : Reg) (s : State) : Host.Outcome State Fault Refusal :=
  .next (retireAlu (Instr.and a b).opcode b (s.regs.get a &&& s.regs.get b) s)

/-- `or rA rB` (R162) -/
def execOr (a b : Reg) (s : State) : Host.Outcome State Fault Refusal :=
  .next (retireAlu (Instr.or a b).opcode b (s.regs.get a ||| s.regs.get b) s)

/-- `xor rA rB` (R163) -/
def execXor (a b : Reg) (s : State) : Host.Outcome State Fault Refusal :=
  .next (retireAlu (Instr.xor a b).opcode b (s.regs.get a ^^^ s.regs.get b) s)

/-- `add rA rB` (R164): modulo 256, the carry is lost -/
def execAdd (a b : Reg) (s : State) : Host.Outcome State Fault Refusal :=
  .next (retireAlu (Instr.add a b).opcode b (s.regs.get a + s.regs.get b) s)

/-- `sub rA rB` (R165): the difference in the order of the open parameter `SUB_ORDER` (log 3), modulo 256 -/
def execSub (a b : Reg) (s : State) : Host.Outcome State Fault Refusal :=
  .next (retireAlu (Instr.sub a b).opcode b (subBy Config.subOrder (s.regs.get a) (s.regs.get b)) s)

/-- `notb rB` (R166) -/
def execNotb (u : BitVec 2) (b : Reg) (s : State) : Host.Outcome State Fault Refusal :=
  .next (retireAlu (Instr.notb u b).opcode b (~~~s.regs.get b) s)

/-- `shiftb rB` (R167) -/
def execShiftb (u : BitVec 2) (b : Reg) (s : State) : Host.Outcome State Fault Refusal :=
  .next (retireAlu (Instr.shiftb u b).opcode b (shiftRight1 (s.regs.get b)) s)

/-- `lshiftb rB` (R168) -/
def execLshiftb (u : BitVec 2) (b : Reg) (s : State) : Host.Outcome State Fault Refusal :=
  .next (retireAlu (Instr.lshiftb u b).opcode b (shiftLeft1 (s.regs.get b)) s)

end Sys2Proof.Machine
end

