-- ==== Sys2Proof/Machine/Direct.lean ====
section
/-! DEFINITION. The direct memory instructions, codes 8 and 9 (43_load_wrt.md). The operand byte is read once,
before the instruction's own store (R180). -/

namespace Sys2Proof.Machine

/-- `load rB $var` (R181): `x[b] <- MEM[k]` -/
def execLoad (u : BitVec 2) (b : Reg) (k : Byte) (s : State) : Host.Outcome State Fault Refusal :=
  .next (retireNext 2 (commitPending b (visit (Instr.load u b k).opcode (absoluteAddress k) s)))

/-- `wrt rB $var` (R182): `MEM[k] <- x[b]` -/
def execWrt (u : BitVec 2) (b : Reg) (k : Byte) (s : State) : Host.Outcome State Fault Refusal :=
  .next (retireNext 2 (storePending b (visit (Instr.wrt u b k).opcode (absoluteAddress k) s)))

end Sys2Proof.Machine
end

