-- ==== Sys2Proof/Machine/Halt.lean ====
section
/-! DEFINITION. `halt` and the unassigned code 14 (46_halt_reserved.md). Both walk the path of a memop up to state 7,
with the byte after the opcode byte as pending address, and never come back to state 0 (R70, R210, R211). -/

namespace Sys2Proof.Machine

/-- The states 0, 2, 4, 5, 6, 7 with the byte after the opcode byte as pending address, `PC` left there (R70). -/
def visitFollowing (o : Byte) (s : State) : State :=
  let k := operandByte s
  { visit o k s with pc := k, pcsVal := k }

/-- `halt` (R210, R244): the state at the end of the tick of state 18, the last tick -/
def execHalt (u : BitVec 4) (s : State) : Host.Outcome State Fault Refusal :=
  .next (raiseHalt (settle (park .s18 .idle .idle (visitFollowing (Instr.halt u).opcode s))))

/-- Code 14 (R211): the state at the end of the first tick in which the sequencer is in state 7. From there ticks go
on, nothing architectural changes and `HALT` stays 0 (`State.stuck`, log 6). -/
def execReserved14 (u : BitVec 4) (s : State) : Host.Outcome State Fault Refusal :=
  .next (settle (park .s7 .acknowledged .idle (visitFollowing (Instr.reserved14 u).opcode s)))

end Sys2Proof.Machine
end

