-- ==== Sys2Proof/Machine/Indirect.lean ====
section
/-! DEFINITION. The register-indirect memory instructions, codes 12 and 13 (45_loadl_wrtl.md). The address is the
whole of register A, read before register B is written (R200, R201). -/

namespace Sys2Proof.Machine

/-- `loadl rA rB` (R201): `x[b] <- MEM[x[a]]` -/
def execLoadl (a b : Reg) (s : State) : Host.Outcome State Fault Refusal :=
  .next (retireNext 1 (commitPending b (visit (Instr.loadl a b).opcode (registerAddress a s) s)))

/-- `wrtl rA rB` (R202): `MEM[x[a]] <- x[b]` -/
def execWrtl (a b : Reg) (s : State) : Host.Outcome State Fault Refusal :=
  .next (retireNext 1 (storePending b (visit (Instr.wrtl a b).opcode (registerAddress a s) s)))

end Sys2Proof.Machine
end

