-- ==== Sys2Proof/Machine/Jump.lean ====
section
/-! DEFINITION. Control transfer, codes 10 and 11 (44_jmpz_jmp.md). A jump is memory-indirect: the operand byte is
the address of a byte that holds the target (R190). -/

namespace Sys2Proof.Machine

/-- `jmpz rB #loc` (R191): the target is read whether or not the jump is taken -/
def execJmpz (u : BitVec 2) (b : Reg) (k : Byte) (s : State) : Host.Outcome State Fault Refusal :=
  .next (let v := visit (Instr.jmpz u b k).opcode k s
    if s.regs.get b = 0 then retireJump v else retireNext 2 v)

/-- `jmp #loc` (R192) -/
def execJmp (u : BitVec 4) (k : Byte) (s : State) : Host.Outcome State Fault Refusal :=
  .next (retireJump (visit (Instr.jmp u k).opcode k s))

end Sys2Proof.Machine
end

