-- ==== Sys2Proof/Machine/Dispatch.lean ====
section
/-! DEFINITION. One arm per instruction, each one call of its meaning. -/

namespace Sys2Proof.Machine

def exec (i : Instr) (s : State) : Host.Outcome State Fault Refusal :=
  match i with
  | .and a b => Sys2Proof.Machine.execAnd a b s
  | .or a b => Sys2Proof.Machine.execOr a b s
  | .xor a b => Sys2Proof.Machine.execXor a b s
  | .add a b => Sys2Proof.Machine.execAdd a b s
  | .sub a b => Sys2Proof.Machine.execSub a b s
  | .notb u b => Sys2Proof.Machine.execNotb u b s
  | .shiftb u b => Sys2Proof.Machine.execShiftb u b s
  | .lshiftb u b => Sys2Proof.Machine.execLshiftb u b s
  | .load u b k => Sys2Proof.Machine.execLoad u b k s
  | .wrt u b k => Sys2Proof.Machine.execWrt u b k s
  | .jmpz u b k => Sys2Proof.Machine.execJmpz u b k s
  | .jmp u k => Sys2Proof.Machine.execJmp u k s
  | .loadl a b => Sys2Proof.Machine.execLoadl a b s
  | .wrtl a b => Sys2Proof.Machine.execWrtl a b s
  | .reserved14 u => Sys2Proof.Machine.execReserved14 u s
  | .halt u => Sys2Proof.Machine.execHalt u s

end Sys2Proof.Machine
end

