-- ==== Sys2Proof/Machine/Sequencer.lean ====
section
/-! DEFINITION. The tick-level model, second half: module 6, the control sequencer (41_control_sequencer.md R120 to
R144), the tick (40_tick_modules.md R90, R91), and the clock and reset edges (10_state.md R31, 70_reset_and_hazards.md
R240). -/

namespace Sys2Proof.Machine

/-- A waiting state: `t` if the channel is `Acknowledged`, else nothing changes (R142). -/
def await (ch : Channel) (t s : State) : State :=
  match ch with
  | .idle => s
  | .requested => s
  | .acknowledged => t

/-- The next state of the dispatch of state 7 (R128). Code 14 has no arm: the state stays 7 (R211). Codes 0 to 7
never reach it; with no arm either, they stay too. -/
def dispatchSeq (op : BitVec 4) (latchB : Byte) : Seq :=
  match op.toNat with
  | 8 => .s8
  | 12 => .s8
  | 9 => .s9
  | 13 => .s9
  | 10 => if latchB = 0 then .s15 else .s11
  | 11 => .s15
  | 15 => .s18
  | _ => .s7

/-- Module 6: the rule of the state the sequencer is in (R121 to R141). A request is an unconditional write of
`Requested` (40_tick_modules.md R94). -/
def sequencer (s : State) : State :=
  let op := opField s.ir
  match s.seq with
  | .s0 => { s with ir := s.rdata, seq := if isHigh s.rdata then .s2 else .s1 }
  | .s1 => { s with rwSrc := .alu, rw := .requested, seq := .s19 }
  | .s2 => { s with bm := s.pc, seq := if isRegInd op then .s3 else .s4 }
  | .s3 => { s with paddr := s.latchA, seq := .s6 }
  | .s4 => { s with pci := .requested, seq := .s5 }
  | .s5 => await s.pci { s with paddr := s.rdata, seq := .s6 } s
  | .s6 => { s with pcsVal := s.paddr, pcs := .requested, seq := .s7 }
  | .s7 => await s.pcs { s with pval := s.rdata, seq := dispatchSeq op s.latchB } s
  | .s8 => { s with rwSrc := .ext, rw := .requested, seq := .s20 }
  | .s9 => { s with st := .requested, seq := .s10 }
  | .s10 => await s.st { s with seq := .s11 } s
  | .s11 => { s with pcsVal := s.bm, pcs := .requested, seq := .s12 }
  | .s12 => await s.pcs { s with pci := .requested, seq := if hasSecond op then .s13 else .s17 } s
  | .s13 => await s.pci { s with seq := .s14 } s
  | .s14 => { s with pci := .requested, seq := .s17 }
  | .s15 => { s with pcsVal := s.pval, pcs := .requested, seq := .s16 }
  | .s16 => await s.pcs { s with seq := .s0 } s
  | .s17 => await s.pci { s with seq := .s0 } s
  | .s18 => raiseHalt s
  | .s19 => await s.rw { s with pci := .requested, seq := .s17 } s
  | .s20 => await s.rw { s with seq := .s11 } s

/-- One tick: the six modules in their fixed order (R90, R91). Its precondition is `HALT = 0`; `clockTick` and
`step` never run it on a halted state. -/
def tick (s : State) : State := sequencer (datapath s)

/-- One rising edge of the clock with `rst = 0`: a tick, or nothing while `HALT = 1` (R31, R101, D18). -/
def clockTick (s : State) : State := if s.halt then s else tick s

/-- `n` edges of the clock with `rst = 0`. -/
def ticks : Nat → State → State
  | 0, s => s
  | n + 1, s => ticks n (clockTick s)

/-- One rising edge with `rst = 1` (R31, R240): every field at its reset value, the registers at `R_INIT`, memory as
the run left it. No tick is evaluated. -/
def resetEdge (rInit : Regs) (s : State) : State :=
  State.launch { rInit := rInit, memInit := s.mem }

/-- One rising edge of the clock (R31, R240). -/
def clockEdge (rInit : Regs) (rst : Bool) (s : State) : State :=
  if rst then resetEdge rInit s else clockTick s

end Sys2Proof.Machine
end

