-- ==== Sys2Proof/Machine/Step.lean ====
section
/-! DEFINITION. One step of the machine. Between two instructions a step is one whole instruction, fetched from
memory (20_memory.md R52); anywhere else it is one tick (log 4). The tick-level model is normative (00_scope.md R6),
and the obligations state that every step is a whole number of ticks. -/

namespace Sys2Proof.Machine

/-- The instruction the decoder read, run; or the decoder's rejection by name. -/
def runDecoded (d : Except DecodeError (Instr × List Byte)) (s : State) : Host.Outcome State Fault Refusal :=
  match d with
  | .ok (i, _) => exec i s
  | .error _ => .refused .truncatedFetch

/-- One step: no step from a halted state (R101), one instruction from a state between two instructions, one tick
from any other. -/
def step (s : State) : Host.Outcome State Fault Refusal :=
  if s.halt then .fault .halted
  else if s.atFetch then runDecoded (decode (fetchBytes s)) s
  else .next (tick s)

/-- `s` with the instruction whose bits are `w` stored where the next step fetches (log 7). -/
def State.withFetchWord (s : State) (nbits w : Nat) : State := placeAtFetch s (tableBytes nbits w)

end Sys2Proof.Machine
end

