-- ==== Sys2Proof/Machine/Interface.lean ====
section
/-! DEFINITION. The outputs of the block during one tick (10_state.md R31), the display hook's trigger among them
(60_exceptions.md R228). They are functions of the state, not state (R30): no tick reads them. -/

namespace Sys2Proof.Machine

/-- The output ports of R31, and the read data the memory answers with. -/
structure Ports where
  /-- always `PC` -/
  memAddr : Byte
  /-- `MEM[mem_addr]`, after this tick's store -/
  memRdata : Byte
  /-- latch `B` -/
  memWdata : Byte
  /-- 1 in the tick in which module 5 services a store request (at an edge with no tick: see `tickPorts`) -/
  memWe : Bool
  /-- `HALT`, as it stands at the start of the tick (DESIGN CHOICE, log 10) -/
  halt : Bool
  /-- 1 in a tick in which `DIAG_ENABLE` holds and `PC = DIAG_ADDR` after module 4 (at an edge with no tick: see
  `tickPorts`) -/
  diag : Bool
  deriving DecidableEq, Repr

/-- The display hook's trigger (R98, R228): a level, for the `PC` module 4 leaves. -/
def diagFires (enable : Bool) (addr pc : Byte) : Bool := enable && (pc == addr)

/-- The ports during the tick that starts in `s` (R31). `PC` and latch `B` do not change after module 4, so the
address, the data and the hook are those of the datapath. `memWe` is the store request module 5 finds.

DESIGN CHOICE (log 10), unsafe: the spec gives `mem_we` and `diag` for a tick only, and leaves open what they show at an
edge at which no tick is evaluated (`HALT = 1`, or `rst = 1`). This function answers by the same formula there. On a
halted state, `diag` stays at the level of `PC` and `memWe` shows whether a store is requested, which in the final state
of a run none is. It takes no `rst`, so at an edge with `rst = 1` it shows what the edge with `rst = 0` would. -/
def tickPorts (s : State) : Ports :=
  let d := datapath s
  { memAddr := d.pc
    memRdata := d.rdata
    memWdata := d.latchB
    memWe := s.st == .requested
    halt := s.halt
    diag := diagFires Config.diagEnable Config.diagAddr d.pc }

end Sys2Proof.Machine
end

