-- ==== Sys2Proof/Safety.lean ====
section
/-! DEFINITION. The terms claims use: the discipline every reachable state keeps, the stuck state, the paths and tick
counts of the instructions, and the frames of their effects. -/

namespace Sys2Proof.Machine

/-! ## The four channels together -/

/-- The four channels of a state (10_state.md R23). -/
structure Chans where
  rw : Channel
  pcs : Channel
  pci : Channel
  st : Channel
  deriving DecidableEq, Repr

/-- The channels of a state. -/
def State.chans (s : State) : Chans := { rw := s.rw, pcs := s.pcs, pci := s.pci, st := s.st }

/-- All four channels `Idle`. -/
def Chans.allIdle : Chans := { rw := .idle, pcs := .idle, pci := .idle, st := .idle }

/-- What the channels may be at the start of a tick in which the sequencer is in state `q`, for the code `op` in the
opcode latch (41_control_sequencer.md R145, R146; of a machine that is not halted). -/
def chansAt (q : Seq) (op : BitVec 4) : List Chans :=
  match q with
  | .s0 => [.allIdle, { Chans.allIdle with pcs := .acknowledged }, { Chans.allIdle with pci := .acknowledged }]
  | .s1 => [.allIdle]
  | .s2 => [.allIdle]
  | .s3 => [.allIdle]
  | .s4 => [.allIdle]
  | .s5 => [{ Chans.allIdle with pci := .requested }]
  | .s6 => if isRegInd op then [.allIdle] else [{ Chans.allIdle with pci := .acknowledged }]
  | .s7 =>
    if op = 14#4 then
      [{ Chans.allIdle with pcs := .requested }, { Chans.allIdle with pcs := .acknowledged }, .allIdle]
    else [{ Chans.allIdle with pcs := .requested }]
  | .s8 => [{ Chans.allIdle with pcs := .acknowledged }]
  | .s9 => [{ Chans.allIdle with pcs := .acknowledged }]
  | .s10 => [{ Chans.allIdle with st := .requested }]
  | .s11 =>
    match op.toNat with
    | 10 => [{ Chans.allIdle with pcs := .acknowledged }]
    | 9 => [{ Chans.allIdle with st := .acknowledged }]
    | 13 => [{ Chans.allIdle with st := .acknowledged }]
    | _ => [{ Chans.allIdle with rw := .acknowledged }]
  | .s12 => [{ Chans.allIdle with pcs := .requested }]
  | .s13 => [{ Chans.allIdle with pcs := .acknowledged, pci := .requested }]
  | .s14 => [{ Chans.allIdle with pci := .acknowledged }]
  | .s15 => [{ Chans.allIdle with pcs := .acknowledged }]
  | .s16 => [{ Chans.allIdle with pcs := .requested }]
  | .s17 =>
    match op.toNat with
    | 8 => [{ Chans.allIdle with pci := .requested }]
    | 9 => [{ Chans.allIdle with pci := .requested }]
    | 10 => [{ Chans.allIdle with pci := .requested }]
    | 12 => [{ Chans.allIdle with pcs := .acknowledged, pci := .requested }]
    | 13 => [{ Chans.allIdle with pcs := .acknowledged, pci := .requested }]
    | _ => [{ Chans.allIdle with rw := .acknowledged, pci := .requested }]
  | .s18 => [{ Chans.allIdle with pcs := .acknowledged }]
  | .s19 => [{ Chans.allIdle with rw := .requested }]
  | .s20 => [{ Chans.allIdle with rw := .requested }]

/-- The codes that reach each state of the sequencer (R121 to R141). -/
def codesAt (q : Seq) : List Nat :=
  match q with
  | .s0 => [0, 1, 2, 3, 4, 5, 6, 7, 8, 9, 10, 11, 12, 13, 14, 15]
  | .s1 => [0, 1, 2, 3, 4, 5, 6, 7]
  | .s2 => [8, 9, 10, 11, 12, 13, 14, 15]
  | .s3 => [12, 13]
  | .s4 => [8, 9, 10, 11, 14, 15]
  | .s5 => [8, 9, 10, 11, 14, 15]
  | .s6 => [8, 9, 10, 11, 12, 13, 14, 15]
  | .s7 => [8, 9, 10, 11, 12, 13, 14, 15]
  | .s8 => [8, 12]
  | .s9 => [9, 13]
  | .s10 => [9, 13]
  | .s11 => [8, 9, 10, 12, 13]
  | .s12 => [8, 9, 10, 12, 13]
  | .s13 => [8, 9, 10]
  | .s14 => [8, 9, 10]
  | .s15 => [10, 11]
  | .s16 => [10, 11]
  | .s17 => [0, 1, 2, 3, 4, 5, 6, 7, 8, 9, 10, 12, 13]
  | .s18 => [15]
  | .s19 => [0, 1, 2, 3, 4, 5, 6, 7]
  | .s20 => [8, 12]

/-- The source that goes with a write-back request: the ALU in state 19, the pending operand value in state 20
(R122, R129). -/
def sourceAt (q : Seq) (src : RwSrc) : Bool :=
  match q with
  | .s19 => src == .alu
  | .s20 => src == .ext
  | _ => true

/-- The handshake discipline (40_tick_modules.md R102, R103, 41_control_sequencer.md R146): code, channels and
write-back source fit the sequencer's state; a halted machine stands in state 18 with all channels `Idle` (R210). -/
def State.disciplined (s : State) : Bool :=
  (codesAt s.seq).contains (opField s.ir).toNat && sourceAt s.seq s.rwSrc &&
    (if s.halt then s.seq == .s18 && s.chans == Chans.allIdle else (chansAt s.seq (opField s.ir)).contains s.chans)

/-- The invariant of the machine: the handshake discipline, and memory in its canonical form. -/
def State.inv (s : State) : Bool := s.disciplined && s.mem.wf

/-- Stuck on code 14 (46_halt_reserved.md R211): not halted, the sequencer in state 7 under code 14, no request
outstanding. -/
def State.stuck (s : State) : Bool :=
  !s.halt && (s.seq == .s7) && (opField s.ir == 14#4) && (s.rw != .requested) && (s.pcs != .requested)
    && (s.pci != .requested) && (s.st != .requested)

/-! ## Paths and tick counts -/

/-- The states of the sequencer from the fetch to the tick before the next fetch, one per tick (R145); to the halt
for `halt`, to the first tick of state 7 for code 14. -/
def pathOf (i : Instr) (s : State) : List Seq :=
  match i with
  | .and _ _ => [.s0, .s1, .s19, .s17]
  | .or _ _ => [.s0, .s1, .s19, .s17]
  | .xor _ _ => [.s0, .s1, .s19, .s17]
  | .add _ _ => [.s0, .s1, .s19, .s17]
  | .sub _ _ => [.s0, .s1, .s19, .s17]
  | .notb _ _ => [.s0, .s1, .s19, .s17]
  | .shiftb _ _ => [.s0, .s1, .s19, .s17]
  | .lshiftb _ _ => [.s0, .s1, .s19, .s17]
  | .load _ _ _ => [.s0, .s2, .s4, .s5, .s6, .s7, .s8, .s20, .s11, .s12, .s13, .s14, .s17]
  | .wrt _ _ _ => [.s0, .s2, .s4, .s5, .s6, .s7, .s9, .s10, .s11, .s12, .s13, .s14, .s17]
  | .jmpz _ b _ =>
    if s.regs.get b = 0 then [.s0, .s2, .s4, .s5, .s6, .s7, .s15, .s16]
    else [.s0, .s2, .s4, .s5, .s6, .s7, .s11, .s12, .s13, .s14, .s17]
  | .jmp _ _ => [.s0, .s2, .s4, .s5, .s6, .s7, .s15, .s16]
  | .loadl _ _ => [.s0, .s2, .s3, .s6, .s7, .s8, .s20, .s11, .s12, .s17]
  | .wrtl _ _ => [.s0, .s2, .s3, .s6, .s7, .s9, .s10, .s11, .s12, .s17]
  | .reserved14 _ => [.s0, .s2, .s4, .s5, .s6, .s7]
  | .halt _ => [.s0, .s2, .s4, .s5, .s6, .s7, .s18]

/-- `PC` after module 4 of each tick of the path (R145, column `PC`), with `p` the fetch address and `k` the byte
after it. -/
def counterPathOf (i : Instr) (s : State) : List Byte :=
  let p := s.pc
  let k := s.mem.read (p + 1)
  match i with
  | .and _ _ => [p, p, p, p + 1]
  | .or _ _ => [p, p, p, p + 1]
  | .xor _ _ => [p, p, p, p + 1]
  | .add _ _ => [p, p, p, p + 1]
  | .sub _ _ => [p, p, p, p + 1]
  | .notb _ _ => [p, p, p, p + 1]
  | .shiftb _ _ => [p, p, p, p + 1]
  | .lshiftb _ _ => [p, p, p, p + 1]
  | .load _ _ _ => [p, p, p, p + 1, p + 1, k, k, k, k, p, p + 1, p + 1, p + 2]
  | .wrt _ _ _ => [p, p, p, p + 1, p + 1, k, k, k, k, p, p + 1, p + 1, p + 2]
  | .jmpz _ b _ =>
    if s.regs.get b = 0 then [p, p, p, p + 1, p + 1, k, k, s.mem.read k]
    else [p, p, p, p + 1, p + 1, k, k, p, p + 1, p + 1, p + 2]
  | .jmp _ _ => [p, p, p, p + 1, p + 1, k, k, s.mem.read k]
  | .loadl a _ =>
    let x := s.regs.get a
    [p, p, p, p, x, x, x, x, p, p + 1]
  | .wrtl a _ =>
    let x := s.regs.get a
    [p, p, p, p, x, x, x, x, p, p + 1]
  | .reserved14 _ => [p, p, p, p + 1, p + 1, k]
  | .halt _ => [p, p, p, p + 1, p + 1, k, k]

/-- The ticks of an instruction (70_reset_and_hazards.md R254). For code 14, whose ticks are unbounded, the ticks up
to the first in which the sequencer is in state 7. -/
def ticksOf (i : Instr) (s : State) : Nat :=
  match i with
  | .and _ _ => 4
  | .or _ _ => 4
  | .xor _ _ => 4
  | .add _ _ => 4
  | .sub _ _ => 4
  | .notb _ _ => 4
  | .shiftb _ _ => 4
  | .lshiftb _ _ => 4
  | .load _ _ _ => 13
  | .wrt _ _ _ => 13
  | .jmpz _ b _ => if s.regs.get b = 0 then 8 else 11
  | .jmp _ _ => 8
  | .loadl _ _ => 10
  | .wrtl _ _ => 10
  | .reserved14 _ => 6
  | .halt _ => 7

/-! ## Effects and frames -/

/-- Every byte of memory reads as before. -/
def SameMemory (s t : State) : Prop := ∀ a : Byte, t.mem.read a = s.mem.read a

/-- Every register but `b` reads as before. -/
def SameRegsBut (b : Reg) (s t : State) : Prop := ∀ r : Reg, r ≠ b → t.regs.get r = s.regs.get r

/-- Every register reads as before. -/
def SameRegs (s t : State) : Prop := ∀ r : Reg, t.regs.get r = s.regs.get r

/-- The whole effect of an ALU instruction `i` (42_alu.md R160) that writes `v` to register `b`: it answers a next
state with that value in register B, the counter one byte on, and everything else an ALU path does not write as it
was: the other registers, all of memory, the halt flag, the bookmark, both pending latches and the set value. -/
def AluEffect (i : Instr) (b : Reg) (v : Byte) (s : State) : Prop :=
  ∃ t, exec i s = .next t ∧ t.regs.get b = v ∧ SameRegsBut b s t ∧ t.pc = s.pc + 1 ∧ SameMemory s t ∧
    t.halt = s.halt ∧ t.bm = s.bm ∧ t.paddr = s.paddr ∧ t.pval = s.pval ∧ t.pcsVal = s.pcsVal

/-- The four conditions under which the micro state stands at the next fetch: sequencer in state 0, only the given
channels acknowledged, the opcode latch holding the instruction's opcode byte. -/
def ParkedAt (i : Instr) (q : Seq) (pcs pci : Channel) (t : State) : Prop :=
  t.seq = q ∧ t.ir = i.opcode ∧ t.rw = .idle ∧ t.pcs = pcs ∧ t.pci = pci ∧ t.st = .idle

/-- The architectural part of an outcome, if it is a next state. -/
def outcomeArch (o : Host.Outcome State Fault Refusal) : Option Arch :=
  match o with
  | .next t => some t.arch
  | .fault _ => none
  | .refused _ => none

end Sys2Proof.Machine
end

