-- ==== Sys2Proof/Certificates/Slice0/Obligations.lean ====
section
/-! DEFINITION. The statements for the provers. Each docstring names the rule of spec/ it formalises. A statement
that meets a value the spec leaves open holds for every value of it. -/

open Sys2Proof Sys2Proof.Machine

/-! ## Encoding and decoding -/

/-- Decode and encode agree on every instruction, with every operand and every unused bit (30_encoding.md R61, R62,
R64): no bit of an encoding is dropped. -/
def Obligations.DecodeInvertsEncode : Prop :=
  ∀ (i : Instr) (rest : List Byte), decode (encode i ++ rest) = .ok (i, rest)

/-- The other direction: the bytes the decoder consumed are the encoding of what it read (R61, R62, R64). -/
def Obligations.EncodeInvertsDecode : Prop :=
  ∀ (bytes : List Byte) (i : Instr) (rest : List Byte), decode bytes = .ok (i, rest) → encode i ++ rest = bytes

/-- Every byte, met as an opcode byte, is decoded by its code (R69): the instruction read has that byte as its opcode
byte, and it is code 14 for the 16 values 0xE0 to 0xEF alone. That all 16 bytes of a code's range are that code,
whatever their unused bits, is the spec's decision D14, log 8. -/
def Obligations.EveryByteIsAnOpcodeByte : Prop :=
  ∀ (o k : Byte) (rest : List Byte), ∃ (i : Instr) (rest' : List Byte),
    decode (o :: k :: rest) = .ok (i, rest') ∧ i.opcode = o ∧
    ((∃ u, i = .reserved14 u) ↔ 0xE0 ≤ o.toNat ∧ o.toNat ≤ 0xEF)

/-- A sanity check of a few words written out from the encodings of the table (R62, R64; 95_test_vectors.md 2.6). -/
def Obligations.WrittenWordsDecode : Prop :=
  decodeTableWord 8 0b00011011 = some (.or .r2 .r3) ∧
  decodeTableWord 8 0b01001110 = some (.sub .r3 .r2) ∧
  decodeTableWord 8 0b01011110 = some (.notb 3 .r2) ∧
  decodeTableWord 16 0x0482 = some (.load 0 .r2 0x04) ∧
  decodeTableWord 16 0x04B0 = some (.jmp 0 0x04) ∧
  decodeTableWord 8 0b11010110 = some (.wrtl .r1 .r2) ∧
  decodeTableWord 8 0b11110000 = some (.halt 0)

/-! ## The step -/

/-- Between two instructions a step is the instruction that the bytes at `PC` decode to (20_memory.md R52). The step
adds nothing around `exec`: the meaning moves the counter itself. -/
def Obligations.StepRunsTheDecodedInstruction : Prop :=
  ∀ (s : State) (i : Instr) (rest : List Byte),
    s.atFetch = true → decode [s.mem.read s.pc, s.mem.read (s.pc + 1)] = .ok (i, rest) → step s = exec i s

/-- A word placed where the machine fetches is what the next step runs, from every state. -/
def Obligations.StepRunsThePlacedWord : Prop :=
  ∀ (s : State) (nbits w : Nat) (i : Instr),
    decodeTableWord nbits w = some i → step (s.withFetchWord nbits w) = exec i (s.withFetchWord nbits w)

/-- No tick happens while `HALT = 1` (40_tick_modules.md R101, 60_exceptions.md R232): a halted machine has no step,
and an edge of the clock changes nothing. That the refused step answers a fault named `halted` is the model's choice
(log 5). That the clock is gated by `HALT` is the spec's decision D18. -/
def Obligations.HaltedMachineStandsStill : Prop :=
  ∀ s : State, s.halt = true → step s = .fault .halted ∧ ∀ n, ticks n s = s

/-- Away from the fetch a step is one tick (the model's choice of step, log 4). The two levels are the spec's decision
D25. -/
def Obligations.StepElsewhereIsOneTick : Prop :=
  ∀ s : State, s.halt = false → s.atFetch = false → step s = .next (tick s)

/-- The headline refinement (00_scope.md R6: the tick level is normative): from every state between two instructions,
the step, which runs the instruction's meaning, gives exactly the state the tick-level machine reaches after that
instruction's ticks, micro state included. The tick counts are those of 70_reset_and_hazards.md R254; for code 14,
whose ticks are unbounded, the step stands for the first six (log 6). The two levels are the spec's decision D25 (log
4), the tick counts follow from its handshake (D10, log 14), and code 14 is its decision D9. -/
def Obligations.StepIsTheTicksOfItsInstruction : Prop :=
  ∀ (s : State) (i : Instr) (rest : List Byte),
    s.atFetch = true → decode (fetchBytes s) = .ok (i, rest) → step s = .next (ticks (ticksOf i s) s)

/-- The path of each instruction (41_control_sequencer.md R145): tick by tick the state the sequencer is in and the
`PC` module 4 leaves. For code 14 the path stays in state 7, with the same `PC`, for ever. The table is the spec's own
inference from R121 to R142 and R103, and its row of code 14 rests on the decision D9 (log 6). -/
def Obligations.PathOfEachInstruction : Prop :=
  ∀ (s : State) (i : Instr) (rest : List Byte),
    s.atFetch = true → decode (fetchBytes s) = .ok (i, rest) →
    (pathOf i s).length = ticksOf i s ∧
    (∀ j q, (pathOf i s)[j]? = some q → (ticks j s).seq = q) ∧
    (∀ j p, (counterPathOf i s)[j]? = some p → (ticks (j + 1) s).pc = p) ∧
    (∀ u, i = .reserved14 u → ∀ j, 5 ≤ j →
      (ticks j s).seq = .s7 ∧ (ticks (j + 1) s).pc = s.mem.read (s.pc + 1))

/-- The machine raises no exception and refuses nothing (60_exceptions.md R220, 30_encoding.md R69): every state has a
next state, but for a halted one, which has none. That nothing raises an exception is the spec's decision D20; that
code 14 answers a next state is D9 and log 6. -/
def Obligations.EveryStateButTheHaltedSteps : Prop :=
  ∀ s : State, if s.halt = true then step s = .fault .halted else ∃ t, step s = .next t

/-- How a run can go (60_exceptions.md R233): under every launch exactly one of three things happens. It halts; it
sticks on code 14; it comes back to the fetch again and again. The spec marks the rule as its own inference, and code 14
as its decision D9 (log 6). -/
def Obligations.ARunGoesOneOfThreeWays : Prop :=
  ∀ l : Launch,
    let run := fun n => ticks n (State.launch l)
    let halts := ∃ n, (run n).halt = true
    let sticks := ∃ n, (run n).stuck = true
    let runsOn := ∀ n, ∃ m, n ≤ m ∧ (run m).atFetch = true
    (halts ∧ ¬ sticks ∧ ¬ runsOn) ∨ (¬ halts ∧ sticks ∧ ¬ runsOn) ∨ (¬ halts ∧ ¬ sticks ∧ runsOn)

/-! ## Invariants -/

/-- Every step keeps the invariant: the handshake discipline (41_control_sequencer.md R146, 40_tick_modules.md R103)
and the canonical form of memory. The handshake is the spec's decision D10, log 14. -/
def Obligations.StepKeepsTheInvariant : Prop :=
  ∀ s t : State, s.inv = true → step s = .next t → t.inv = true

/-- Every tick keeps the handshake discipline (R102, R103, R146): the tick-level invariant behind the rules on the
channels. The handshake is the spec's decision D10, log 14. -/
def Obligations.TickKeepsTheDiscipline : Prop :=
  ∀ s : State, s.halt = false → s.disciplined = true → (tick s).disciplined = true

/-- The state after reset, and every launch with a memory in canonical form, meets the invariant. -/
def Obligations.LaunchMeetsTheInvariant : Prop :=
  State.reset.inv = true ∧ ∀ l : Launch, l.memInit.wf = true → (State.launch l).inv = true

/-! ## The handshake -/

/-- Every state that waits for an acknowledgement finds it when the sequencer is evaluated, so no wait lasts more than
one tick (40_tick_modules.md R103). The one exception is state 7 with code 14. The spec's own inference from its
handshake (D10, log 14); code 14 is D9, log 6. -/
def Obligations.AwaitedAcknowledgementIsThere : Prop :=
  ∀ s : State, s.halt = false → s.disciplined = true →
    (s.seq = .s5 ∨ s.seq = .s13 ∨ s.seq = .s17 → (datapath s).pci = .acknowledged) ∧
    (s.seq = .s12 ∨ s.seq = .s16 → (datapath s).pcs = .acknowledged) ∧
    (s.seq = .s7 → opField s.ir ≠ 14 → (datapath s).pcs = .acknowledged) ∧
    (s.seq = .s10 → (datapath s).st = .acknowledged) ∧
    (s.seq = .s19 ∨ s.seq = .s20 → (datapath s).rw = .acknowledged)

/-- At every tick in which the sequencer makes a request, the channel is `Idle` when module 6 is evaluated; in state 0
no channel is `Requested` at the start of the tick, at most one, `PCI` or `PCS`, is `Acknowledged`, and all four are
`Idle` when module 6 is evaluated; a set and an increment are never requested in the same tick
(41_control_sequencer.md R146, the spec's own inference from R145, R92 and R93). The discipline it assumes is the
invariant of `TickKeepsTheDiscipline`. The handshake is the spec's decision D10, log 14. -/
def Obligations.RequestsAreMadeOnIdleChannels : Prop :=
  ∀ s : State, s.halt = false → s.disciplined = true →
    ((tick s).rw = .requested → (datapath s).rw = .idle) ∧
    ((tick s).pcs = .requested → (datapath s).pcs = .idle) ∧
    ((tick s).pci = .requested → (datapath s).pci = .idle) ∧
    ((tick s).st = .requested → (datapath s).st = .idle) ∧
    ¬ (s.pcs = .requested ∧ s.pci = .requested) ∧
    (s.seq = .s0 → s.rw = .idle ∧ s.st = .idle ∧ s.pcs ≠ .requested ∧ s.pci ≠ .requested ∧
      ¬ (s.pcs = .acknowledged ∧ s.pci = .acknowledged) ∧ (datapath s).chans = Chans.allIdle)

/-- One-tick latency (40_tick_modules.md R102): a request put up in a tick is acknowledged when the sequencer is
evaluated in the next, and the channel is `Idle` when it is evaluated in the one after. The spec's own inference from
its handshake, D10, log 14. -/
def Obligations.RequestIsServedOneTickLater : Prop :=
  ∀ s : State, s.halt = false → s.disciplined = true →
    ((tick s).rw = .requested →
      (datapath (tick s)).rw = .acknowledged ∧ (datapath (tick (tick s))).rw = .idle) ∧
    ((tick s).pcs = .requested →
      (datapath (tick s)).pcs = .acknowledged ∧ (datapath (tick (tick s))).pcs = .idle) ∧
    ((tick s).pci = .requested →
      (datapath (tick s)).pci = .acknowledged ∧ (datapath (tick (tick s))).pci = .idle) ∧
    ((tick s).st = .requested →
      (datapath (tick s)).st = .acknowledged ∧ (datapath (tick (tick s))).st = .idle)

/-- A waiting state does nothing and keeps its state in a tick in which its channel is not `Acknowledged`. This hold is
the spec's own decision, D13 (41_control_sequencer.md R142; log 11): the source does not say what such a state does
without its acknowledgement, and no run from a launch comes there. -/
def Obligations.WaitingStateHolds : Prop :=
  ∀ s : State,
    (s.seq = .s5 ∨ s.seq = .s13 ∨ s.seq = .s17 → s.pci ≠ .acknowledged → sequencer s = s) ∧
    (s.seq = .s7 ∨ s.seq = .s12 ∨ s.seq = .s16 → s.pcs ≠ .acknowledged → sequencer s = s) ∧
    (s.seq = .s10 → s.st ≠ .acknowledged → sequencer s = s) ∧
    (s.seq = .s19 ∨ s.seq = .s20 → s.rw ≠ .acknowledged → sequencer s = s)

/-! ## What one tick changes -/

/-- The sequencer never writes the registers, `PC`, memory, the operand latches or the result latch itself: it asks
the other modules (41_control_sequencer.md R120). -/
def Obligations.SequencerWritesControlStateAlone : Prop :=
  ∀ s : State,
    (sequencer s).regs = s.regs ∧ (sequencer s).pc = s.pc ∧ (sequencer s).mem = s.mem ∧
    (sequencer s).latchA = s.latchA ∧ (sequencer s).latchB = s.latchB ∧ (sequencer s).aluOut = s.aluOut ∧
    (sequencer s).rdata = s.rdata

/-- The general registers are written by a serviced write-back alone, and always the register of the B field
(40_tick_modules.md R95, 10_state.md R11). That the external value is `PVAL` and the source is held in `RW_SRC` is the
spec's decision D16, log 14. -/
def Obligations.RegistersAreWrittenByWriteBackAlone : Prop :=
  ∀ s : State, (tick s).regs =
    if s.rw = .requested then s.regs.set (bReg s.ir) (if s.rwSrc = .alu then s.aluOut else s.pval) else s.regs

/-- The latches `A`, `B` and `ALU_OUT` follow the opcode latch of the tick's start and the registers after its
write-back, in every tick (40_tick_modules.md R96, R97). When and for which codes the latches load is the spec's
decision D11 (log 14), code 14 D9; the order of SUB is open (D7, log 3). -/
def Obligations.LatchesFollowTheOpcodeLatch : Prop :=
  ∀ s : State,
    let op := (opField s.ir).toNat
    (tick s).latchA = (if op ≤ 4 ∨ op = 12 ∨ op = 13 then (tick s).regs.get (aReg s.ir) else s.latchA) ∧
    (tick s).latchB = (if op ≤ 10 ∨ op = 12 ∨ op = 13 then (tick s).regs.get (bReg s.ir) else s.latchB) ∧
    (tick s).aluOut = aluResult Config.subOrder (opField s.ir) (tick s).latchA (tick s).latchB

/-- `PC` is written by a serviced set or increment alone, the set first (40_tick_modules.md R98, 10_state.md R12). The
wrap modulo 256 is the spec's decision D2 (log 12), the set before the increment D17 (log 11). -/
def Obligations.CounterMovesByServicedRequestsAlone : Prop :=
  ∀ s : State, (tick s).pc =
    (if s.pcs = .requested then s.pcsVal else s.pc) + (if s.pci = .requested then 1 else 0)

/-- Memory is written by a serviced store alone, latch `B` at the counter of the tick, and the read data is the byte
at that counter after the store (40_tick_modules.md R99, 20_memory.md R50). That latch `B` is stored is the spec's
decision D12, the store before the read D21 (log 14). -/
def Obligations.MemoryIsWrittenByTheServicedStoreAlone : Prop :=
  ∀ s : State,
    (tick s).mem = (if s.st = .requested then s.mem.write (tick s).pc (tick s).latchB else s.mem) ∧
    (tick s).rdata = (tick s).mem.read (tick s).pc

/-- The halt flag is set by the sequencer in state 18 and by nothing else, and no tick clears it (10_state.md R13). -/
def Obligations.HaltFlagRisesInState18Alone : Prop :=
  ∀ s : State, (tick s).halt = (s.halt || s.seq == .s18)

/-- The ports of a tick (10_state.md R31): the address is always `PC`, the read data the byte there after the store,
and memory changes only when `mem_we` is 1, at the address and with the data on the ports. The whole interface is the
spec's choice, D1; that the `halt` port shows the flag at the start of the tick, and that the ports answer for a
halted state too, is the model's, log 10. -/
def Obligations.PortsCarryTheTick : Prop :=
  ∀ s : State,
    (tickPorts s).memAddr = (tick s).pc ∧
    (tickPorts s).memRdata = (tick s).mem.read (tickPorts s).memAddr ∧
    (tickPorts s).memWdata = (tick s).latchB ∧
    (tickPorts s).halt = s.halt ∧
    (tick s).mem = (if (tickPorts s).memWe = true then
      s.mem.write (tickPorts s).memAddr (tickPorts s).memWdata else s.mem)

/-- The display hook fires in every tick in which it is enabled and `PC` is the diagnostic address after module 4, for
every value of the two open parameters (60_exceptions.md R228, D19). That this level holds on a halted state too,
where no tick is evaluated, is the model's choice, log 10. -/
def Obligations.DisplayHookWatchesTheCounter : Prop :=
  ∀ s : State, (tickPorts s).diag = true ↔ Config.diagEnable = true ∧ (tick s).pc = Config.diagAddr

/-! ## Memory and reset -/

/-- Two memories in canonical form that read alike are equal as data. -/
def Obligations.CanonicalMemoriesThatReadAlikeAreEqual : Prop :=
  ∀ m m' : Memory, m.wf = true → m'.wf = true → (∀ a, m.read a = m'.read a) → m = m'

/-- An image of at most 256 bytes loaded at 0 is read back byte for byte, and every other byte is as before
(20_memory.md R42). What the other bytes hold is left to the launch by the spec's decision D3, log 2. -/
def Obligations.LoadedImageIsReadBack : Prop :=
  ∀ (m : Memory) (image : List Byte) (a : Byte), image.length ≤ 256 →
    (m.loadImage 0 image).read a = (image[a.toNat]?).getD (m.read a)

/-- The state after reset, field by field, for every `R_INIT` and `MEM_INIT`. The source gives no reset value: those of
the control state and of the micro latches are the spec's own choice, D4 and D5, as the table of R29 gives them
(10_state.md R29: "The values below are this spec's choice"). -/
def Obligations.LaunchSetsEveryField : Prop :=
  ∀ l : Launch,
    let s := State.launch l
    s.regs = l.rInit ∧ s.pc = 0 ∧ s.halt = false ∧ s.mem = l.memInit ∧ s.seq = .s0 ∧
    s.rw = .idle ∧ s.pcs = .idle ∧ s.pci = .idle ∧ s.st = .idle ∧
    s.ir = 0 ∧ s.latchA = 0 ∧ s.latchB = 0 ∧ s.aluOut = 0 ∧ s.rdata = 0 ∧ s.bm = 0 ∧ s.paddr = 0 ∧ s.pval = 0 ∧
    s.pcsVal = 0 ∧ s.rwSrc = .alu

/-- An edge of the clock with `rst = 1` resets in place of a tick, halted or not, and leaves memory as the run left
it; the next tick is an ordinary one in state 0 that fetches `MEM[0]`. Reset and its values are the spec's own choice,
D4 and D5 (70_reset_and_hazards.md R240, R242; log 9). -/
def Obligations.ResetEdgeRestartsAtZeroAndKeepsMemory : Prop :=
  ∀ (rInit : Regs) (s : State),
    clockEdge rInit true s = State.launch { rInit := rInit, memInit := s.mem } ∧
    (clockEdge rInit true s).mem = s.mem ∧
    (clockTick (clockEdge rInit true s)).ir = s.mem.read 0

/-- What the micro state holds at a fetch cannot be seen: two states between instructions with the same architectural
state have steps to states with the same architectural state (70_reset_and_hazards.md R252, 10_state.md R28). -/
def Obligations.MicroStateIsUnobservableAcrossAStep : Prop :=
  ∀ s t : State, s.atFetch = true → t.atFetch = true → s.arch = t.arch →
    ∃ s' t', step s = .next s' ∧ step t = .next t' ∧ s'.arch = t'.arch

/-- The same tick for tick: the values the micro latches have at a fetch, after reset above all, have no effect on
the architectural state at any later tick (70_reset_and_hazards.md R241, the spec's own inference, which backs its
decision D5). -/
def Obligations.MicroStateIsUnobservableAtEveryTick : Prop :=
  ∀ s t : State, s.atFetch = true → t.atFetch = true → s.arch = t.arch →
    ∀ n, (ticks n s).arch = (ticks n t).arch

/-! ## The ALU instructions -/

/-- `and rA rB` (42_alu.md R161), with its corner cases and the example of the source. -/
def Obligations.AndWritesTheConjunction : Prop :=
  ∀ (a b : Reg) (s : State),
    (Instr.and a b).opcode = BitVec.ofNat 8 (0 * 16 + a.toBits.toNat * 4 + b.toBits.toNat) ∧
    AluEffect (.and a b) b (s.regs.get a &&& s.regs.get b) s ∧
    (a = b → AluEffect (.and a b) b (s.regs.get b) s) ∧
    (s.regs.get a = 0 ∨ s.regs.get b = 0 → AluEffect (.and a b) b 0 s) ∧
    (s.regs.get a = 0b1010 → s.regs.get b = 0b1100 → AluEffect (.and a b) b 0b1000 s)

/-- `or rA rB` (R162), with its corner cases and example. -/
def Obligations.OrWritesTheDisjunction : Prop :=
  ∀ (a b : Reg) (s : State),
    (Instr.or a b).opcode = BitVec.ofNat 8 (1 * 16 + a.toBits.toNat * 4 + b.toBits.toNat) ∧
    AluEffect (.or a b) b (s.regs.get a ||| s.regs.get b) s ∧
    (a = b → AluEffect (.or a b) b (s.regs.get b) s) ∧
    (s.regs.get b = 0 → AluEffect (.or a b) b (s.regs.get a) s) ∧
    (s.regs.get a = 0b1010 → s.regs.get b = 0b1100 → AluEffect (.or a b) b 14 s)

/-- `xor rA rB` (R163), with its corner case and example. -/
def Obligations.XorWritesTheExclusiveOr : Prop :=
  ∀ (a b : Reg) (s : State),
    (Instr.xor a b).opcode = BitVec.ofNat 8 (2 * 16 + a.toBits.toNat * 4 + b.toBits.toNat) ∧
    AluEffect (.xor a b) b (s.regs.get a ^^^ s.regs.get b) s ∧
    (a = b → AluEffect (.xor a b) b 0 s) ∧
    (s.regs.get a = 0b1010 → s.regs.get b = 0b1100 → AluEffect (.xor a b) b 6 s)

/-- `add rA rB` (R164), modulo 256, with its corner cases and example. -/
def Obligations.AddWritesTheSumModulo256 : Prop :=
  ∀ (a b : Reg) (s : State),
    (Instr.add a b).opcode = BitVec.ofNat 8 (3 * 16 + a.toBits.toNat * 4 + b.toBits.toNat) ∧
    AluEffect (.add a b) b (BitVec.ofNat 8 ((s.regs.get a).toNat + (s.regs.get b).toNat)) s ∧
    (a = b → AluEffect (.add a b) b (s.regs.get b <<< 1) s) ∧
    (s.regs.get a = 255 → AluEffect (.add a b) b (s.regs.get b - 1) s) ∧
    (s.regs.get a = 200 → s.regs.get b = 100 → AluEffect (.add a b) b 44 s) ∧
    (s.regs.get a = 255 → s.regs.get b = 1 → AluEffect (.add a b) b 0 s) ∧
    (s.regs.get a = 3 → s.regs.get b = 250 → AluEffect (.add a b) b 253 s)

/-- `sub rA rB` (R165) for either value of the open parameter `SUB_ORDER`, modulo 256: with the same register twice it
writes 0 under both orders, and 5 and 3 give 2 or 254. The order is open: D7, log 3. -/
def Obligations.SubWritesTheDifferenceInTheOpenOrder : Prop :=
  ∀ (a b : Reg) (s : State),
    (Instr.sub a b).opcode = BitVec.ofNat 8 (4 * 16 + a.toBits.toNat * 4 + b.toBits.toNat) ∧
    AluEffect (.sub a b) b
      (match Config.subOrder with
      | .aMinusB => BitVec.ofInt 8 (((s.regs.get a).toNat : Int) - ((s.regs.get b).toNat : Int))
      | .bMinusA => BitVec.ofInt 8 (((s.regs.get b).toNat : Int) - ((s.regs.get a).toNat : Int))) s ∧
    (a = b → AluEffect (.sub a b) b 0 s) ∧
    (s.regs.get a = 0 → AluEffect (.sub a b) b
      (match Config.subOrder with
      | .aMinusB => - s.regs.get b
      | .bMinusA => s.regs.get b) s) ∧
    (s.regs.get b = 0 → AluEffect (.sub a b) b
      (match Config.subOrder with
      | .aMinusB => s.regs.get a
      | .bMinusA => - s.regs.get a) s) ∧
    (s.regs.get a = 5 → s.regs.get b = 3 → AluEffect (.sub a b) b
      (match Config.subOrder with
      | .aMinusB => 2
      | .bMinusA => 254) s)

/-- `notb rB` (R166) with every value of its unused bits. -/
def Obligations.NotbWritesTheComplement : Prop :=
  ∀ (u : BitVec 2) (b : Reg) (s : State),
    (Instr.notb u b).opcode = BitVec.ofNat 8 (5 * 16 + u.toNat * 4 + b.toBits.toNat) ∧
    AluEffect (.notb u b) b (255 - s.regs.get b) s ∧
    (s.regs.get b = 0 → AluEffect (.notb u b) b 255 s) ∧
    (s.regs.get b = 255 → AluEffect (.notb u b) b 0 s) ∧
    (∀ t, exec (.notb u b) s = .next t → AluEffect (.notb u b) b (s.regs.get b) t) ∧
    (s.regs.get b = 0b00001111 → AluEffect (.notb u b) b 240 s)

/-- `shiftb rB` (R167) with every value of its unused bits. -/
def Obligations.ShiftbHalvesRegisterB : Prop :=
  ∀ (u : BitVec 2) (b : Reg) (s : State),
    (Instr.shiftb u b).opcode = BitVec.ofNat 8 (6 * 16 + u.toNat * 4 + b.toBits.toNat) ∧
    AluEffect (.shiftb u b) b (BitVec.ofNat 8 ((s.regs.get b).toNat / 2)) s ∧
    (s.regs.get b = 1 → AluEffect (.shiftb u b) b 0 s) ∧
    (s.regs.get b = 0 → AluEffect (.shiftb u b) b 0 s) ∧
    (s.regs.get b = 0x80 → AluEffect (.shiftb u b) b 0x40 s) ∧
    (s.regs.get b = 255 → AluEffect (.shiftb u b) b 127 s) ∧
    (s.regs.get b = 0x81 → AluEffect (.shiftb u b) b 0x40 s)

/-- `lshiftb rB` (R168) with every value of its unused bits. -/
def Obligations.LshiftbDoublesRegisterB : Prop :=
  ∀ (u : BitVec 2) (b : Reg) (s : State),
    (Instr.lshiftb u b).opcode = BitVec.ofNat 8 (7 * 16 + u.toNat * 4 + b.toBits.toNat) ∧
    AluEffect (.lshiftb u b) b (BitVec.ofNat 8 (2 * (s.regs.get b).toNat)) s ∧
    (s.regs.get b = 0x80 → AluEffect (.lshiftb u b) b 0 s) ∧
    (s.regs.get b = 0xFF → AluEffect (.lshiftb u b) b 0xFE s) ∧
    (s.regs.get b = 0 → AluEffect (.lshiftb u b) b 0 s) ∧
    (s.regs.get b = 0x81 → AluEffect (.lshiftb u b) b 0x02 s)

/-- The micro state an ALU instruction leaves (42_alu.md R160, 41_control_sequencer.md R145): the sequencer in state
0, the opcode latch the instruction's byte, the increment acknowledged and the other channels idle, the write-back
source the ALU, latch `B` the new register B, and the read data the byte at the next instruction. The channels are
those of the spec's handshake, D10, log 14. -/
def Obligations.AluInstructionParksTheSequencer : Prop :=
  ∀ (i : Instr) (s : State), (opField i.opcode).toNat < 8 →
    ∃ t, exec i s = .next t ∧ ParkedAt i .s0 .idle .acknowledged t ∧ t.rwSrc = .alu ∧
      t.latchB = t.regs.get (bReg i.opcode) ∧ t.rdata = t.mem.read t.pc

/-- The laws of the arithmetic unit (42_alu.md R169, 40_tick_modules.md R97), for either order of SUB, by the code of
each operation. -/
def Obligations.ArithmeticLaws : Prop :=
  ∀ (order : SubOrder) (x y : Byte),
    aluResult order 0 x y = aluResult order 0 y x ∧ aluResult order 0 x x = x ∧
    aluResult order 1 x y = aluResult order 1 y x ∧ aluResult order 1 x x = x ∧
    aluResult order 2 x y = aluResult order 2 y x ∧ aluResult order 2 x x = 0 ∧
    aluResult order 3 x y = BitVec.ofNat 8 (x.toNat + y.toNat) ∧ aluResult order 3 x y = aluResult order 3 y x ∧
    aluResult order 3 x 0 = x ∧ aluResult order 3 x 255 = x - 1 ∧
    aluResult .aMinusB 4 x y = BitVec.ofInt 8 ((x.toNat : Int) - (y.toNat : Int)) ∧
    aluResult .bMinusA 4 x y = BitVec.ofInt 8 ((y.toNat : Int) - (x.toNat : Int)) ∧
    aluResult order 4 x x = 0 ∧ aluResult .aMinusB 4 x 0 = x ∧ aluResult .bMinusA 4 0 y = y ∧
    aluResult .aMinusB 4 0 y = BitVec.ofNat 8 (256 - y.toNat) ∧
    aluResult .bMinusA 4 x 0 = BitVec.ofNat 8 (256 - x.toNat) ∧
    aluResult order 5 x y = 255 - y ∧ aluResult order 5 x (aluResult order 5 x y) = y ∧
    aluResult order 5 x y + 1 = - y ∧
    (aluResult order 6 x y).toNat = y.toNat / 2 ∧
    (aluResult order 7 x y).toNat = 2 * y.toNat % 256 ∧ aluResult order 7 x y = aluResult order 3 y y

/-- For codes 8 to 15 the arithmetic unit yields zero, and that zero is never written to a register: a write-back from
the ALU is requested under codes 0 to 7 alone (42_alu.md R170, the spec's own inference from R121 and R122). -/
def Obligations.UnassignedArithmeticIsZeroAndNeverCommitted : Prop :=
  (∀ (order : SubOrder) (op : BitVec 4) (x y : Byte), 8 ≤ op.toNat → aluResult order op x y = 0) ∧
  ∀ s : State, s.halt = false → s.disciplined = true → s.rw = .requested → s.rwSrc = .alu → (opField s.ir).toNat < 8

/-! ## The memory instructions -/

/-- `load rB $var` (43_load_wrt.md R180, R181): the byte at `k` goes to register B, the counter steps by two, nothing
else changes; the bookmark is `p`, the pending address `k`, the pending operand value the byte loaded. -/
def Obligations.LoadReadsTheAbsoluteAddress : Prop :=
  ∀ (u : BitVec 2) (b : Reg) (k : Byte) (s : State),
    ∃ t, exec (.load u b k) s = .next t ∧ t.regs.get b = s.mem.read k ∧ SameRegsBut b s t ∧ t.pc = s.pc + 2 ∧
      SameMemory s t ∧ t.halt = s.halt ∧
      t.bm = s.pc ∧ t.paddr = k ∧ t.pval = s.mem.read k ∧ t.rwSrc = .ext ∧ t.pcsVal = s.pc ∧
      ParkedAt (.load u b k) .s0 .idle .acknowledged t

/-- `wrt rB $var` (R180, R182): the byte of register B goes to address `k` and to no other, the counter steps by two,
no register changes; the pending operand value is the byte that was at `k` before. That the store takes latch `B` is
the spec's decision D12, log 14. -/
def Obligations.WrtStoresAtTheAbsoluteAddress : Prop :=
  ∀ (u : BitVec 2) (b : Reg) (k : Byte) (s : State),
    ∃ t, exec (.wrt u b k) s = .next t ∧ t.mem.read (absoluteAddress k) = s.regs.get b ∧
      (∀ a, a ≠ absoluteAddress k → t.mem.read a = s.mem.read a) ∧ SameRegs s t ∧ t.pc = s.pc + 2 ∧
      t.halt = s.halt ∧
      t.bm = s.pc ∧ t.paddr = k ∧ t.pval = s.mem.read k ∧ t.rwSrc = s.rwSrc ∧ t.pcsVal = s.pc ∧
      ParkedAt (.wrt u b k) .s0 .idle .acknowledged t

/-- `loadl rA rB` (45_loadl_wrtl.md R200, R201): the byte at the address in register A, read before register B is
written, goes to register B; the counter steps by one; register A changes only if it is register B. That state 3
latches the address is the spec's decision D8, log 13. -/
def Obligations.LoadlReadsTheAddressInRegisterA : Prop :=
  ∀ (a b : Reg) (s : State),
    ∃ t, exec (.loadl a b) s = .next t ∧ t.regs.get b = s.mem.read (s.regs.get a) ∧ SameRegsBut b s t ∧
      t.pc = s.pc + 1 ∧ SameMemory s t ∧ t.halt = s.halt ∧
      t.bm = s.pc ∧ t.paddr = s.regs.get a ∧ t.pval = s.mem.read (s.regs.get a) ∧ t.rwSrc = .ext ∧
      t.pcsVal = s.pc ∧ ParkedAt (.loadl a b) .s0 .idle .acknowledged t

/-- `wrtl rA rB` (R200, R202): the byte of register B goes to the address in register A and to no other; the counter
steps by one; no register changes. That state 3 latches the address is the spec's decision D8 (log 13), that the store
takes latch `B` D12 (log 14). -/
def Obligations.WrtlStoresAtTheAddressInRegisterA : Prop :=
  ∀ (a b : Reg) (s : State),
    ∃ t, exec (.wrtl a b) s = .next t ∧ t.mem.read (registerAddress a s) = s.regs.get b ∧
      (∀ x, x ≠ registerAddress a s → t.mem.read x = s.mem.read x) ∧ SameRegs s t ∧ t.pc = s.pc + 1 ∧
      t.halt = s.halt ∧
      t.bm = s.pc ∧ t.paddr = s.regs.get a ∧ t.pval = s.mem.read (s.regs.get a) ∧ t.rwSrc = s.rwSrc ∧
      t.pcsVal = s.pc ∧ ParkedAt (.wrtl a b) .s0 .idle .acknowledged t

/-- A store is seen by the next fetch with nothing in between, onto the next opcode byte or the one after it, and the
storing instruction itself is not disturbed (20_memory.md R52, 70_reset_and_hazards.md R253): the next instruction is
the decoding of the bytes as the store left them. The spec's own inference; the store before the read of its tick is
D21, log 14. -/
def Obligations.StoreIsSeenByTheNextFetch : Prop :=
  ∀ (s t u : State) (i : Instr) (rest : List Byte) (b : Reg) (x : Byte),
    s.atFetch = true → decode (fetchBytes s) = .ok (i, rest) →
    ((∃ w k, i = .wrt w b k ∧ x = k) ∨ (∃ a, i = .wrtl a b ∧ x = s.regs.get a)) →
    step s = .next t → step t = .next u →
    u.ir = if x = t.pc then s.regs.get b else s.mem.read t.pc

/-! ## Control transfer -/

/-- `jmpz rB #loc` (44_jmpz_jmp.md R191): to the byte AT `k` if register B is 0, else to the next instruction, two
bytes on; no register and no byte of memory changes. That the jump goes through memory is the spec's decision D23 (log
13), the test on latch `B` D12 (log 14). -/
def Obligations.JmpzJumpsThroughMemoryIfZero : Prop :=
  ∀ (u : BitVec 2) (b : Reg) (k : Byte) (s : State),
    ∃ t, exec (.jmpz u b k) s = .next t ∧
      t.pc = (if s.regs.get b = 0 then s.mem.read k else s.pc + 2) ∧
      SameRegs s t ∧ SameMemory s t ∧ t.halt = s.halt ∧
      t.bm = s.pc ∧ t.paddr = k ∧ t.pval = s.mem.read k ∧ t.rwSrc = s.rwSrc ∧
      t.pcsVal = (if s.regs.get b = 0 then s.mem.read k else s.pc) ∧
      (if s.regs.get b = 0 then ParkedAt (.jmpz u b k) .s0 .acknowledged .idle t
        else ParkedAt (.jmpz u b k) .s0 .idle .acknowledged t)

/-- `jmp #loc` (R190, R192): to the byte AT `k`, whatever the low nibble of the opcode byte holds. That the jump goes
through memory is the spec's decision D23 (log 13), that the low nibble is ignored D14 (log 8). -/
def Obligations.JmpJumpsThroughMemory : Prop :=
  ∀ (u : BitVec 4) (k : Byte) (s : State),
    ∃ t, exec (.jmp u k) s = .next t ∧ t.pc = s.mem.read k ∧ SameRegs s t ∧ SameMemory s t ∧ t.halt = s.halt ∧
      t.bm = s.pc ∧ t.paddr = k ∧ t.pval = s.mem.read k ∧ t.rwSrc = s.rwSrc ∧ t.pcsVal = s.mem.read k ∧
      ParkedAt (.jmp u k) .s0 .acknowledged .idle t

/-! ## Halt and code 14 -/

/-- `halt` (46_halt_reserved.md R210, 70_reset_and_hazards.md R244): the final state. The final `PC` and state are the
spec's decision D22 (log 13), that the low nibble is ignored D14 (log 8). -/
def Obligations.HaltEndsTheRun : Prop :=
  ∀ (u : BitVec 4) (s : State),
    ∃ t, exec (.halt u) s = .next t ∧ t.halt = true ∧ t.pc = s.mem.read (s.pc + 1) ∧ SameRegs s t ∧ SameMemory s t ∧
      t.bm = s.pc ∧ t.paddr = s.mem.read (s.pc + 1) ∧ t.pval = s.mem.read (s.mem.read (s.pc + 1)) ∧
      t.rwSrc = s.rwSrc ∧ ParkedAt (.halt u) .s18 .idle .idle t

/-- Code 14 (R211): the machine stands in state 7 with `PC` at the byte after the opcode byte, not halted, nothing
else architectural changed, and it is stuck. What code 14 does is the spec's own reading, D9: it is not in the source;
that a stuck machine is a next state and not a fault is the model's choice, log 6. -/
def Obligations.Code14GetsStuck : Prop :=
  ∀ (u : BitVec 4) (s : State), s.halt = false →
    ∃ t, exec (.reserved14 u) s = .next t ∧ t.pc = s.mem.read (s.pc + 1) ∧ SameRegs s t ∧ SameMemory s t ∧
      t.halt = false ∧ t.bm = s.pc ∧ t.paddr = s.mem.read (s.pc + 1) ∧
      t.pval = s.mem.read (s.mem.read (s.pc + 1)) ∧ t.rwSrc = s.rwSrc ∧ t.stuck = true ∧
      ParkedAt (.reserved14 u) .s7 .acknowledged .idle t

/-- Stuck is for ever (R211, 60_exceptions.md R233): ticks and steps go on, no architectural state ever changes again,
and the machine never halts. That code 14 sticks is the spec's own reading, D9: it is not in the source; that a stuck
machine answers next states and not a fault is the model's choice, log 6. -/
def Obligations.StuckIsForEver : Prop :=
  ∀ s : State, s.stuck = true →
    (∀ n, (ticks n s).arch = s.arch ∧ (ticks n s).stuck = true) ∧
    ∃ t, step s = .next t ∧ t.arch = s.arch ∧ t.stuck = true

/-- Of all the instructions, `halt` alone raises the halt flag (10_state.md R13). That code 14 does not is the spec's
decision D9, log 6. -/
def Obligations.HaltAloneRaisesTheFlag : Prop :=
  ∀ (s t : State) (i : Instr) (rest : List Byte),
    s.atFetch = true → decode (fetchBytes s) = .ok (i, rest) → step s = .next t →
    (t.halt = true ↔ ∃ u, i = .halt u)

/-- Unused bits of the opcode byte are ignored (30_encoding.md R65): they change nothing architectural. The whole
statement is that choice: the source does not say so, the spec decides it (D14), and log 8 marks it. -/
def Obligations.UnusedBitsChangeNothingArchitectural : Prop :=
  ∀ (b : Reg) (k : Byte) (s : State),
    (∀ u u' : BitVec 2,
      outcomeArch (exec (.notb u b) s) = outcomeArch (exec (.notb u' b) s) ∧
      outcomeArch (exec (.shiftb u b) s) = outcomeArch (exec (.shiftb u' b) s) ∧
      outcomeArch (exec (.lshiftb u b) s) = outcomeArch (exec (.lshiftb u' b) s) ∧
      outcomeArch (exec (.load u b k) s) = outcomeArch (exec (.load u' b k) s) ∧
      outcomeArch (exec (.wrt u b k) s) = outcomeArch (exec (.wrt u' b k) s) ∧
      outcomeArch (exec (.jmpz u b k) s) = outcomeArch (exec (.jmpz u' b k) s)) ∧
    (∀ u u' : BitVec 4,
      outcomeArch (exec (.jmp u k) s) = outcomeArch (exec (.jmp u' k) s) ∧
      outcomeArch (exec (.halt u) s) = outcomeArch (exec (.halt u') s) ∧
      outcomeArch (exec (.reserved14 u) s) = outcomeArch (exec (.reserved14 u') s))
end

