-- ==== Sys2Proof/Laws/Decode.lean ====
section
/-! SUPPORT. The fields of an opcode byte that was put together from fields, and back (30_encoding.md R61). -/

namespace Sys2Proof

@[simp] theorem Reg.ofBits_toBits (r : Reg) : Reg.ofBits r.toBits = r := by
  cases r <;> rfl

@[simp] theorem Reg.toBits_ofBits (v : BitVec 2) : (Reg.ofBits v).toBits = v := by
  revert v
  decide

theorem opField_opcodeByte (op : BitVec 4) (x y : BitVec 2) : opField (opcodeByte op x y) = op := by
  revert op x y
  decide

theorem aBits_opcodeByte (op : BitVec 4) (x y : BitVec 2) : aBits (opcodeByte op x y) = x := by
  revert op x y
  decide

theorem bBits_opcodeByte (op : BitVec 4) (x y : BitVec 2) : bBits (opcodeByte op x y) = y := by
  revert op x y
  decide

/-- An opcode byte is its three fields put together again. -/
theorem opcodeByte_fields (o : Byte) : opcodeByte (opField o) (aBits o) (bBits o) = o := by
  revert o
  decide

/-- An opcode byte is its code and its low nibble put together again. -/
theorem byteN_fields (o : Byte) : byteN (opField o) (lowNibble o) = o := by
  revert o
  decide

@[simp] theorem opField_byteRR (op : BitVec 4) (a b : Reg) : opField (byteRR op a b) = op :=
  opField_opcodeByte op a.toBits b.toBits

@[simp] theorem aReg_byteRR (op : BitVec 4) (a b : Reg) : aReg (byteRR op a b) = a := by
  simp [aReg, byteRR, aBits_opcodeByte]

@[simp] theorem bReg_byteRR (op : BitVec 4) (a b : Reg) : bReg (byteRR op a b) = b := by
  simp [bReg, byteRR, bBits_opcodeByte]

@[simp] theorem opField_byteR (op : BitVec 4) (u : BitVec 2) (b : Reg) : opField (byteR op u b) = op :=
  opField_opcodeByte op u b.toBits

@[simp] theorem aBits_byteR (op : BitVec 4) (u : BitVec 2) (b : Reg) : aBits (byteR op u b) = u :=
  aBits_opcodeByte op u b.toBits

@[simp] theorem bReg_byteR (op : BitVec 4) (u : BitVec 2) (b : Reg) : bReg (byteR op u b) = b := by
  simp [bReg, byteR, bBits_opcodeByte]

@[simp] theorem opField_byteN (op u : BitVec 4) : opField (byteN op u) = op := by
  revert op u
  decide

@[simp] theorem lowNibble_byteN (op u : BitVec 4) : lowNibble (byteN op u) = u := by
  revert op u
  decide

end Sys2Proof
end

