-- ==== Sys2Proof/Laws/Ops.lean ====
section
/-! SUPPORT. What the operations over registers, memory, channels and addresses do: one law per operation. -/

namespace Sys2Proof.Machine

/-! ## Registers -/

theorem Regs.get_set (x : Regs) (i j : Reg) (v : Byte) : (x.set i v).get j = if j = i then v else x.get j := by
  cases i <;> cases j <;> rfl

@[simp] theorem Regs.get_set_same (x : Regs) (i : Reg) (v : Byte) : (x.set i v).get i = v := by
  simp [Regs.get_set]

theorem Regs.get_set_ne (x : Regs) {i j : Reg} (v : Byte) (h : j ≠ i) : (x.set i v).get j = x.get j := by
  simp [Regs.get_set, h]

theorem Regs.ext_get {x y : Regs} (h : ∀ r, x.get r = y.get r) : x = y := by
  have h0 := h .r0
  have h1 := h .r1
  have h2 := h .r2
  have h3 := h .r3
  cases x
  cases y
  simp_all [Regs.get]

/-! ## Memory: the cells -/

theorem cellsRead_erase (l : List Host.Cell) (a b : Nat) :
    cellsRead (cellsErase l a) b = if b = a then unlistedByte else cellsRead l b := by
  induction l with
  | nil => simp [cellsErase, cellsRead]
  | cons c rest ih =>
    obtain ⟨x, v⟩ := c
    by_cases hx : x = a
    · subst hx
      by_cases hb : b = x
      · subst hb
        simpa [cellsErase] using ih
      · simp [cellsErase, cellsRead, ih, hb, Ne.symm hb]
    · by_cases hb : x = b
      · subst hb
        simp [cellsErase, cellsRead, hx]
      · simp [cellsErase, cellsRead, ih, hx, hb]

theorem cellsRead_insert_erase (l : List Host.Cell) (a b : Nat) (v : Byte) :
    cellsRead (cellsInsert (cellsErase l a) a v) b = if b = a then v else cellsRead l b := by
  induction l with
  | nil =>
    by_cases hb : b = a
    · simp [cellsErase, cellsInsert, cellsRead, hb]
    · simp [cellsErase, cellsInsert, cellsRead, hb, Ne.symm hb]
  | cons c rest ih =>
    obtain ⟨x, w⟩ := c
    by_cases hx : x = a
    · subst hx
      by_cases hb : b = x
      · subst hb
        simpa [cellsErase] using ih
      · simp [cellsErase, cellsRead, ih, hb, Ne.symm hb]
    · by_cases hlt : a < x
      · have he := cellsRead_erase rest a b
        by_cases hb : b = a
        · simp [cellsErase, cellsInsert, cellsRead, hx, hlt, hb]
        · simp [cellsErase, cellsInsert, cellsRead, hx, hlt, hb, Ne.symm hb, he]
      · by_cases hb : x = b
        · subst hb
          simp [cellsErase, cellsInsert, cellsRead, hx, hlt]
        · simp [cellsErase, cellsInsert, cellsRead, hx, hlt, hb, ih]

theorem cellsWf_lower {lo lo' : Nat} {l : List Host.Cell} (h : cellsWf lo l = true) (hle : lo' ≤ lo) :
    cellsWf lo' l = true := by
  cases l with
  | nil => rfl
  | cons c rest =>
    obtain ⟨x, v⟩ := c
    simp only [cellsWf, Bool.and_eq_true, decide_eq_true_eq] at h ⊢
    exact ⟨⟨⟨by omega, h.1.1.2⟩, h.1.2⟩, h.2⟩

theorem cellsWf_erase {lo : Nat} {l : List Host.Cell} (a : Nat) (h : cellsWf lo l = true) :
    cellsWf lo (cellsErase l a) = true := by
  induction l generalizing lo with
  | nil => rfl
  | cons c rest ih =>
    obtain ⟨x, v⟩ := c
    simp only [cellsWf, Bool.and_eq_true, decide_eq_true_eq] at h
    by_cases hx : x = a
    · simpa [cellsErase, hx] using cellsWf_lower (ih h.2) (by omega)
    · simp only [cellsErase, hx, if_false, cellsWf, Bool.and_eq_true, decide_eq_true_eq]
      exact ⟨h.1, ih h.2⟩

theorem cellsWf_insert_erase {lo : Nat} {l : List Host.Cell} {a : Nat} {v : Byte} (h : cellsWf lo l = true)
    (hlo : lo ≤ a) (ha : a < 256) (hv : v ≠ unlistedByte) :
    cellsWf lo (cellsInsert (cellsErase l a) a v) = true := by
  induction l generalizing lo with
  | nil => simp [cellsErase, cellsInsert, cellsWf, hlo, ha, hv]
  | cons c rest ih =>
    obtain ⟨x, w⟩ := c
    simp only [cellsWf, Bool.and_eq_true, decide_eq_true_eq] at h
    by_cases hx : x = a
    · simpa [cellsErase, hx] using ih (cellsWf_lower h.2 (by omega)) hlo
    · by_cases hlt : a < x
      · have hr := cellsWf_erase a h.2
        simp [cellsErase, cellsInsert, cellsWf, hx, hlt, hlo, ha, hv, hr, h.1.1.2, Nat.succ_le_of_lt hlt]
        simpa using h.1.2
      · have hr := ih (lo := x + 1) h.2 (by omega)
        simp only [cellsErase, hx, if_false, cellsInsert, hlt, cellsWf, Bool.and_eq_true, decide_eq_true_eq]
        exact ⟨h.1, hr⟩

/-! ## Memory: the operations -/

/-- A read after a write gives the byte written at its address and the old byte at every other (20_memory.md R47).
It holds of every list of cells, canonical or not. -/
theorem Memory.read_write (m : Memory) (a v b : Byte) : (m.write a v).read b = if b = a then v else m.read b := by
  have hab : (b.toNat = a.toNat) = (b = a) := by simp [BitVec.toNat_inj]
  by_cases hv : v = unlistedByte
  · simp [Memory.write, Memory.read, hv, cellsRead_erase, hab]
  · simp [Memory.write, Memory.read, hv, cellsRead_insert_erase, hab]

@[simp] theorem Memory.read_write_same (m : Memory) (a v : Byte) : (m.write a v).read a = v := by
  simp [Memory.read_write]

theorem Memory.read_write_ne (m : Memory) {a b : Byte} (v : Byte) (h : b ≠ a) : (m.write a v).read b = m.read b := by
  simp [Memory.read_write, h]

/-- A write keeps the canonical form. -/
theorem Memory.write_wf {m : Memory} (a v : Byte) (h : m.wf = true) : (m.write a v).wf = true := by
  by_cases hv : v = unlistedByte
  · simpa [Memory.wf, Memory.write, hv] using cellsWf_erase a.toNat h
  · simpa [Memory.wf, Memory.write, hv] using cellsWf_insert_erase h (Nat.zero_le _) a.isLt hv

/-- Loading an image keeps the canonical form. -/
theorem Memory.loadImage_wf {m : Memory} (a : Byte) (bytes : List Byte) (h : m.wf = true) :
    (m.loadImage a bytes).wf = true := by
  induction bytes generalizing m a with
  | nil => exact h
  | cons v rest ih => exact ih (a + 1) (Memory.write_wf a v h)

/-- The memory of the state after reset is in the canonical form. -/
theorem reset_mem_wf : State.reset.mem.wf = true := rfl

/-! ## The decoder's predicates -/

/-- The high bit of the opcode byte is the high bit of its code, so it is set for codes 8 to 15 (30_encoding.md
R66). -/
theorem isHigh_eq (o : Byte) : isHigh o = (opField o).getLsbD 3 := by
  revert o
  decide

theorem isHigh_eq_false_iff (o : Byte) : isHigh o = false ↔ (opField o).toNat < 8 := by
  revert o
  decide

/-! ## Channels and fetch -/

@[simp] theorem Channel.advance_idle : Channel.idle.advance = .idle := rfl
@[simp] theorem Channel.advance_requested : Channel.requested.advance = .acknowledged := rfl
@[simp] theorem Channel.advance_acknowledged : Channel.acknowledged.advance = .idle := rfl

/-- A channel that is not `Requested` is `Idle` after its module has run. -/
theorem Channel.advance_of_ne {c : Channel} (h : c ≠ .requested) : c.advance = .idle := by
  cases c <;> simp_all

/-- `State.atFetch` in its six clauses. -/
theorem atFetch_iff (s : State) :
    s.atFetch = true ↔ s.halt = false ∧ s.seq = .s0 ∧ s.rw ≠ .requested ∧ s.pcs ≠ .requested ∧ s.pci ≠ .requested ∧
      s.st ≠ .requested := by
  simp [State.atFetch, and_assoc]

@[simp] theorem placeAtFetch_atFetch (s : State) (bytes : List Byte) : (placeAtFetch s bytes).atFetch = true := by
  rw [atFetch_iff]
  refine ⟨rfl, rfl, ?_, ?_, ?_, ?_⟩ <;> simp only [placeAtFetch]
  · cases s.rw <;> decide
  · cases s.pcs <;> decide
  · cases s.pci <;> decide
  · cases s.st <;> decide

theorem fetchBytes_eq (s : State) : fetchBytes s = [s.mem.read s.pc, operandByte s] := rfl

end Sys2Proof.Machine
end

