-- ==== Sys2Proof/Laws/State.lean ====
section
/-! SUPPORT. One lemma per field per named update of the state, so that no proof unfolds a record update. -/

namespace Sys2Proof.Machine

variable (s : State)

@[simp] theorem putRw_regs (c : Channel) : (putRw c s).regs = s.regs := rfl
@[simp] theorem putRw_pc (c : Channel) : (putRw c s).pc = s.pc := rfl
@[simp] theorem putRw_halt (c : Channel) : (putRw c s).halt = s.halt := rfl
@[simp] theorem putRw_mem (c : Channel) : (putRw c s).mem = s.mem := rfl
@[simp] theorem putRw_latchA (c : Channel) : (putRw c s).latchA = s.latchA := rfl
@[simp] theorem putRw_latchB (c : Channel) : (putRw c s).latchB = s.latchB := rfl
@[simp] theorem putRw_aluOut (c : Channel) : (putRw c s).aluOut = s.aluOut := rfl
@[simp] theorem putRw_ir (c : Channel) : (putRw c s).ir = s.ir := rfl
@[simp] theorem putRw_rdata (c : Channel) : (putRw c s).rdata = s.rdata := rfl
@[simp] theorem putRw_seq (c : Channel) : (putRw c s).seq = s.seq := rfl
@[simp] theorem putRw_bm (c : Channel) : (putRw c s).bm = s.bm := rfl
@[simp] theorem putRw_paddr (c : Channel) : (putRw c s).paddr = s.paddr := rfl
@[simp] theorem putRw_pval (c : Channel) : (putRw c s).pval = s.pval := rfl
@[simp] theorem putRw_rw (c : Channel) : (putRw c s).rw = c := rfl
@[simp] theorem putRw_pcs (c : Channel) : (putRw c s).pcs = s.pcs := rfl
@[simp] theorem putRw_pci (c : Channel) : (putRw c s).pci = s.pci := rfl
@[simp] theorem putRw_st (c : Channel) : (putRw c s).st = s.st := rfl
@[simp] theorem putRw_rwSrc (c : Channel) : (putRw c s).rwSrc = s.rwSrc := rfl
@[simp] theorem putRw_pcsVal (c : Channel) : (putRw c s).pcsVal = s.pcsVal := rfl

@[simp] theorem putPcs_regs (c : Channel) : (putPcs c s).regs = s.regs := rfl
@[simp] theorem putPcs_pc (c : Channel) : (putPcs c s).pc = s.pc := rfl
@[simp] theorem putPcs_halt (c : Channel) : (putPcs c s).halt = s.halt := rfl
@[simp] theorem putPcs_mem (c : Channel) : (putPcs c s).mem = s.mem := rfl
@[simp] theorem putPcs_latchA (c : Channel) : (putPcs c s).latchA = s.latchA := rfl
@[simp] theorem putPcs_latchB (c : Channel) : (putPcs c s).latchB = s.latchB := rfl
@[simp] theorem putPcs_aluOut (c : Channel) : (putPcs c s).aluOut = s.aluOut := rfl
@[simp] theorem putPcs_ir (c : Channel) : (putPcs c s).ir = s.ir := rfl
@[simp] theorem putPcs_rdata (c : Channel) : (putPcs c s).rdata = s.rdata := rfl
@[simp] theorem putPcs_seq (c : Channel) : (putPcs c s).seq = s.seq := rfl
@[simp] theorem putPcs_bm (c : Channel) : (putPcs c s).bm = s.bm := rfl
@[simp] theorem putPcs_paddr (c : Channel) : (putPcs c s).paddr = s.paddr := rfl
@[simp] theorem putPcs_pval (c : Channel) : (putPcs c s).pval = s.pval := rfl
@[simp] theorem putPcs_rw (c : Channel) : (putPcs c s).rw = s.rw := rfl
@[simp] theorem putPcs_pcs (c : Channel) : (putPcs c s).pcs = c := rfl
@[simp] theorem putPcs_pci (c : Channel) : (putPcs c s).pci = s.pci := rfl
@[simp] theorem putPcs_st (c : Channel) : (putPcs c s).st = s.st := rfl
@[simp] theorem putPcs_rwSrc (c : Channel) : (putPcs c s).rwSrc = s.rwSrc := rfl
@[simp] theorem putPcs_pcsVal (c : Channel) : (putPcs c s).pcsVal = s.pcsVal := rfl

@[simp] theorem putPci_regs (c : Channel) : (putPci c s).regs = s.regs := rfl
@[simp] theorem putPci_pc (c : Channel) : (putPci c s).pc = s.pc := rfl
@[simp] theorem putPci_halt (c : Channel) : (putPci c s).halt = s.halt := rfl
@[simp] theorem putPci_mem (c : Channel) : (putPci c s).mem = s.mem := rfl
@[simp] theorem putPci_latchA (c : Channel) : (putPci c s).latchA = s.latchA := rfl
@[simp] theorem putPci_latchB (c : Channel) : (putPci c s).latchB = s.latchB := rfl
@[simp] theorem putPci_aluOut (c : Channel) : (putPci c s).aluOut = s.aluOut := rfl
@[simp] theorem putPci_ir (c : Channel) : (putPci c s).ir = s.ir := rfl
@[simp] theorem putPci_rdata (c : Channel) : (putPci c s).rdata = s.rdata := rfl
@[simp] theorem putPci_seq (c : Channel) : (putPci c s).seq = s.seq := rfl
@[simp] theorem putPci_bm (c : Channel) : (putPci c s).bm = s.bm := rfl
@[simp] theorem putPci_paddr (c : Channel) : (putPci c s).paddr = s.paddr := rfl
@[simp] theorem putPci_pval (c : Channel) : (putPci c s).pval = s.pval := rfl
@[simp] theorem putPci_rw (c : Channel) : (putPci c s).rw = s.rw := rfl
@[simp] theorem putPci_pcs (c : Channel) : (putPci c s).pcs = s.pcs := rfl
@[simp] theorem putPci_pci (c : Channel) : (putPci c s).pci = c := rfl
@[simp] theorem putPci_st (c : Channel) : (putPci c s).st = s.st := rfl
@[simp] theorem putPci_rwSrc (c : Channel) : (putPci c s).rwSrc = s.rwSrc := rfl
@[simp] theorem putPci_pcsVal (c : Channel) : (putPci c s).pcsVal = s.pcsVal := rfl

@[simp] theorem putSt_regs (c : Channel) : (putSt c s).regs = s.regs := rfl
@[simp] theorem putSt_pc (c : Channel) : (putSt c s).pc = s.pc := rfl
@[simp] theorem putSt_halt (c : Channel) : (putSt c s).halt = s.halt := rfl
@[simp] theorem putSt_mem (c : Channel) : (putSt c s).mem = s.mem := rfl
@[simp] theorem putSt_latchA (c : Channel) : (putSt c s).latchA = s.latchA := rfl
@[simp] theorem putSt_latchB (c : Channel) : (putSt c s).latchB = s.latchB := rfl
@[simp] theorem putSt_aluOut (c : Channel) : (putSt c s).aluOut = s.aluOut := rfl
@[simp] theorem putSt_ir (c : Channel) : (putSt c s).ir = s.ir := rfl
@[simp] theorem putSt_rdata (c : Channel) : (putSt c s).rdata = s.rdata := rfl
@[simp] theorem putSt_seq (c : Channel) : (putSt c s).seq = s.seq := rfl
@[simp] theorem putSt_bm (c : Channel) : (putSt c s).bm = s.bm := rfl
@[simp] theorem putSt_paddr (c : Channel) : (putSt c s).paddr = s.paddr := rfl
@[simp] theorem putSt_pval (c : Channel) : (putSt c s).pval = s.pval := rfl
@[simp] theorem putSt_rw (c : Channel) : (putSt c s).rw = s.rw := rfl
@[simp] theorem putSt_pcs (c : Channel) : (putSt c s).pcs = s.pcs := rfl
@[simp] theorem putSt_pci (c : Channel) : (putSt c s).pci = s.pci := rfl
@[simp] theorem putSt_st (c : Channel) : (putSt c s).st = c := rfl
@[simp] theorem putSt_rwSrc (c : Channel) : (putSt c s).rwSrc = s.rwSrc := rfl
@[simp] theorem putSt_pcsVal (c : Channel) : (putSt c s).pcsVal = s.pcsVal := rfl

@[simp] theorem raiseHalt_regs : (raiseHalt s).regs = s.regs := rfl
@[simp] theorem raiseHalt_pc : (raiseHalt s).pc = s.pc := rfl
@[simp] theorem raiseHalt_halt : (raiseHalt s).halt = true := rfl
@[simp] theorem raiseHalt_mem : (raiseHalt s).mem = s.mem := rfl
@[simp] theorem raiseHalt_latchA : (raiseHalt s).latchA = s.latchA := rfl
@[simp] theorem raiseHalt_latchB : (raiseHalt s).latchB = s.latchB := rfl
@[simp] theorem raiseHalt_aluOut : (raiseHalt s).aluOut = s.aluOut := rfl
@[simp] theorem raiseHalt_ir : (raiseHalt s).ir = s.ir := rfl
@[simp] theorem raiseHalt_rdata : (raiseHalt s).rdata = s.rdata := rfl
@[simp] theorem raiseHalt_seq : (raiseHalt s).seq = s.seq := rfl
@[simp] theorem raiseHalt_bm : (raiseHalt s).bm = s.bm := rfl
@[simp] theorem raiseHalt_paddr : (raiseHalt s).paddr = s.paddr := rfl
@[simp] theorem raiseHalt_pval : (raiseHalt s).pval = s.pval := rfl
@[simp] theorem raiseHalt_rw : (raiseHalt s).rw = s.rw := rfl
@[simp] theorem raiseHalt_pcs : (raiseHalt s).pcs = s.pcs := rfl
@[simp] theorem raiseHalt_pci : (raiseHalt s).pci = s.pci := rfl
@[simp] theorem raiseHalt_st : (raiseHalt s).st = s.st := rfl
@[simp] theorem raiseHalt_rwSrc : (raiseHalt s).rwSrc = s.rwSrc := rfl
@[simp] theorem raiseHalt_pcsVal : (raiseHalt s).pcsVal = s.pcsVal := rfl

@[simp] theorem park_regs (q : Seq) (c d : Channel) : (park q c d s).regs = s.regs := rfl
@[simp] theorem park_pc (q : Seq) (c d : Channel) : (park q c d s).pc = s.pc := rfl
@[simp] theorem park_halt (q : Seq) (c d : Channel) : (park q c d s).halt = s.halt := rfl
@[simp] theorem park_mem (q : Seq) (c d : Channel) : (park q c d s).mem = s.mem := rfl
@[simp] theorem park_latchA (q : Seq) (c d : Channel) : (park q c d s).latchA = s.latchA := rfl
@[simp] theorem park_latchB (q : Seq) (c d : Channel) : (park q c d s).latchB = s.latchB := rfl
@[simp] theorem park_aluOut (q : Seq) (c d : Channel) : (park q c d s).aluOut = s.aluOut := rfl
@[simp] theorem park_ir (q : Seq) (c d : Channel) : (park q c d s).ir = s.ir := rfl
@[simp] theorem park_rdata (q : Seq) (c d : Channel) : (park q c d s).rdata = s.rdata := rfl
@[simp] theorem park_seq (q : Seq) (c d : Channel) : (park q c d s).seq = q := rfl
@[simp] theorem park_bm (q : Seq) (c d : Channel) : (park q c d s).bm = s.bm := rfl
@[simp] theorem park_paddr (q : Seq) (c d : Channel) : (park q c d s).paddr = s.paddr := rfl
@[simp] theorem park_pval (q : Seq) (c d : Channel) : (park q c d s).pval = s.pval := rfl
@[simp] theorem park_rw (q : Seq) (c d : Channel) : (park q c d s).rw = .idle := rfl
@[simp] theorem park_pcs (q : Seq) (c d : Channel) : (park q c d s).pcs = c := rfl
@[simp] theorem park_pci (q : Seq) (c d : Channel) : (park q c d s).pci = d := rfl
@[simp] theorem park_st (q : Seq) (c d : Channel) : (park q c d s).st = .idle := rfl
@[simp] theorem park_rwSrc (q : Seq) (c d : Channel) : (park q c d s).rwSrc = s.rwSrc := rfl
@[simp] theorem park_pcsVal (q : Seq) (c d : Channel) : (park q c d s).pcsVal = s.pcsVal := rfl

@[simp] theorem routeOperands_regs : (routeOperands s).regs = s.regs := rfl
@[simp] theorem routeOperands_pc : (routeOperands s).pc = s.pc := rfl
@[simp] theorem routeOperands_halt : (routeOperands s).halt = s.halt := rfl
@[simp] theorem routeOperands_mem : (routeOperands s).mem = s.mem := rfl
@[simp] theorem routeOperands_latchA : (routeOperands s).latchA = (if needsTwo (opField s.ir) then s.regs.get (aReg s.ir) else s.latchA) := rfl
@[simp] theorem routeOperands_latchB : (routeOperands s).latchB = (if needsTwo (opField s.ir) || needsOne (opField s.ir) then s.regs.get (bReg s.ir) else s.latchB) := rfl
@[simp] theorem routeOperands_aluOut : (routeOperands s).aluOut = s.aluOut := rfl
@[simp] theorem routeOperands_ir : (routeOperands s).ir = s.ir := rfl
@[simp] theorem routeOperands_rdata : (routeOperands s).rdata = s.rdata := rfl
@[simp] theorem routeOperands_seq : (routeOperands s).seq = s.seq := rfl
@[simp] theorem routeOperands_bm : (routeOperands s).bm = s.bm := rfl
@[simp] theorem routeOperands_paddr : (routeOperands s).paddr = s.paddr := rfl
@[simp] theorem routeOperands_pval : (routeOperands s).pval = s.pval := rfl
@[simp] theorem routeOperands_rw : (routeOperands s).rw = s.rw := rfl
@[simp] theorem routeOperands_pcs : (routeOperands s).pcs = s.pcs := rfl
@[simp] theorem routeOperands_pci : (routeOperands s).pci = s.pci := rfl
@[simp] theorem routeOperands_st : (routeOperands s).st = s.st := rfl
@[simp] theorem routeOperands_rwSrc : (routeOperands s).rwSrc = s.rwSrc := rfl
@[simp] theorem routeOperands_pcsVal : (routeOperands s).pcsVal = s.pcsVal := rfl

@[simp] theorem computeAlu_regs : (computeAlu s).regs = s.regs := rfl
@[simp] theorem computeAlu_pc : (computeAlu s).pc = s.pc := rfl
@[simp] theorem computeAlu_halt : (computeAlu s).halt = s.halt := rfl
@[simp] theorem computeAlu_mem : (computeAlu s).mem = s.mem := rfl
@[simp] theorem computeAlu_latchA : (computeAlu s).latchA = s.latchA := rfl
@[simp] theorem computeAlu_latchB : (computeAlu s).latchB = s.latchB := rfl
@[simp] theorem computeAlu_aluOut : (computeAlu s).aluOut = aluResult Config.subOrder (opField s.ir) s.latchA s.latchB := rfl
@[simp] theorem computeAlu_ir : (computeAlu s).ir = s.ir := rfl
@[simp] theorem computeAlu_rdata : (computeAlu s).rdata = s.rdata := rfl
@[simp] theorem computeAlu_seq : (computeAlu s).seq = s.seq := rfl
@[simp] theorem computeAlu_bm : (computeAlu s).bm = s.bm := rfl
@[simp] theorem computeAlu_paddr : (computeAlu s).paddr = s.paddr := rfl
@[simp] theorem computeAlu_pval : (computeAlu s).pval = s.pval := rfl
@[simp] theorem computeAlu_rw : (computeAlu s).rw = s.rw := rfl
@[simp] theorem computeAlu_pcs : (computeAlu s).pcs = s.pcs := rfl
@[simp] theorem computeAlu_pci : (computeAlu s).pci = s.pci := rfl
@[simp] theorem computeAlu_st : (computeAlu s).st = s.st := rfl
@[simp] theorem computeAlu_rwSrc : (computeAlu s).rwSrc = s.rwSrc := rfl
@[simp] theorem computeAlu_pcsVal : (computeAlu s).pcsVal = s.pcsVal := rfl

@[simp] theorem exposeRead_regs : (exposeRead s).regs = s.regs := rfl
@[simp] theorem exposeRead_pc : (exposeRead s).pc = s.pc := rfl
@[simp] theorem exposeRead_halt : (exposeRead s).halt = s.halt := rfl
@[simp] theorem exposeRead_mem : (exposeRead s).mem = s.mem := rfl
@[simp] theorem exposeRead_latchA : (exposeRead s).latchA = s.latchA := rfl
@[simp] theorem exposeRead_latchB : (exposeRead s).latchB = s.latchB := rfl
@[simp] theorem exposeRead_aluOut : (exposeRead s).aluOut = s.aluOut := rfl
@[simp] theorem exposeRead_ir : (exposeRead s).ir = s.ir := rfl
@[simp] theorem exposeRead_rdata : (exposeRead s).rdata = s.mem.read s.pc := rfl
@[simp] theorem exposeRead_seq : (exposeRead s).seq = s.seq := rfl
@[simp] theorem exposeRead_bm : (exposeRead s).bm = s.bm := rfl
@[simp] theorem exposeRead_paddr : (exposeRead s).paddr = s.paddr := rfl
@[simp] theorem exposeRead_pval : (exposeRead s).pval = s.pval := rfl
@[simp] theorem exposeRead_rw : (exposeRead s).rw = s.rw := rfl
@[simp] theorem exposeRead_pcs : (exposeRead s).pcs = s.pcs := rfl
@[simp] theorem exposeRead_pci : (exposeRead s).pci = s.pci := rfl
@[simp] theorem exposeRead_st : (exposeRead s).st = s.st := rfl
@[simp] theorem exposeRead_rwSrc : (exposeRead s).rwSrc = s.rwSrc := rfl
@[simp] theorem exposeRead_pcsVal : (exposeRead s).pcsVal = s.pcsVal := rfl

@[simp] theorem latchOpcode_regs (o : Byte) : (latchOpcode o s).regs = s.regs := rfl
@[simp] theorem latchOpcode_pc (o : Byte) : (latchOpcode o s).pc = s.pc := rfl
@[simp] theorem latchOpcode_halt (o : Byte) : (latchOpcode o s).halt = s.halt := rfl
@[simp] theorem latchOpcode_mem (o : Byte) : (latchOpcode o s).mem = s.mem := rfl
@[simp] theorem latchOpcode_latchA (o : Byte) : (latchOpcode o s).latchA = (routeOperands s).latchA := rfl
@[simp] theorem latchOpcode_latchB (o : Byte) : (latchOpcode o s).latchB = (routeOperands s).latchB := rfl
@[simp] theorem latchOpcode_aluOut (o : Byte) : (latchOpcode o s).aluOut = s.aluOut := rfl
@[simp] theorem latchOpcode_ir (o : Byte) : (latchOpcode o s).ir = o := rfl
@[simp] theorem latchOpcode_rdata (o : Byte) : (latchOpcode o s).rdata = s.rdata := rfl
@[simp] theorem latchOpcode_seq (o : Byte) : (latchOpcode o s).seq = s.seq := rfl
@[simp] theorem latchOpcode_bm (o : Byte) : (latchOpcode o s).bm = s.bm := rfl
@[simp] theorem latchOpcode_paddr (o : Byte) : (latchOpcode o s).paddr = s.paddr := rfl
@[simp] theorem latchOpcode_pval (o : Byte) : (latchOpcode o s).pval = s.pval := rfl
@[simp] theorem latchOpcode_rw (o : Byte) : (latchOpcode o s).rw = s.rw := rfl
@[simp] theorem latchOpcode_pcs (o : Byte) : (latchOpcode o s).pcs = s.pcs := rfl
@[simp] theorem latchOpcode_pci (o : Byte) : (latchOpcode o s).pci = s.pci := rfl
@[simp] theorem latchOpcode_st (o : Byte) : (latchOpcode o s).st = s.st := rfl
@[simp] theorem latchOpcode_rwSrc (o : Byte) : (latchOpcode o s).rwSrc = s.rwSrc := rfl
@[simp] theorem latchOpcode_pcsVal (o : Byte) : (latchOpcode o s).pcsVal = s.pcsVal := rfl

@[simp] theorem visit_regs (o ea : Byte) : (visit o ea s).regs = s.regs := rfl
@[simp] theorem visit_pc (o ea : Byte) : (visit o ea s).pc = s.pc := rfl
@[simp] theorem visit_halt (o ea : Byte) : (visit o ea s).halt = s.halt := rfl
@[simp] theorem visit_mem (o ea : Byte) : (visit o ea s).mem = s.mem := rfl
@[simp] theorem visit_latchA (o ea : Byte) : (visit o ea s).latchA = (routeOperands s).latchA := rfl
@[simp] theorem visit_latchB (o ea : Byte) : (visit o ea s).latchB = (routeOperands s).latchB := rfl
@[simp] theorem visit_aluOut (o ea : Byte) : (visit o ea s).aluOut = s.aluOut := rfl
@[simp] theorem visit_ir (o ea : Byte) : (visit o ea s).ir = o := rfl
@[simp] theorem visit_rdata (o ea : Byte) : (visit o ea s).rdata = s.rdata := rfl
@[simp] theorem visit_seq (o ea : Byte) : (visit o ea s).seq = s.seq := rfl
@[simp] theorem visit_bm (o ea : Byte) : (visit o ea s).bm = s.pc := rfl
@[simp] theorem visit_paddr (o ea : Byte) : (visit o ea s).paddr = ea := rfl
@[simp] theorem visit_pval (o ea : Byte) : (visit o ea s).pval = s.mem.read ea := rfl
@[simp] theorem visit_rw (o ea : Byte) : (visit o ea s).rw = s.rw := rfl
@[simp] theorem visit_pcs (o ea : Byte) : (visit o ea s).pcs = s.pcs := rfl
@[simp] theorem visit_pci (o ea : Byte) : (visit o ea s).pci = s.pci := rfl
@[simp] theorem visit_st (o ea : Byte) : (visit o ea s).st = s.st := rfl
@[simp] theorem visit_rwSrc (o ea : Byte) : (visit o ea s).rwSrc = s.rwSrc := rfl
@[simp] theorem visit_pcsVal (o ea : Byte) : (visit o ea s).pcsVal = s.pcsVal := rfl

@[simp] theorem commitPending_regs (b : Reg) : (commitPending b s).regs = s.regs.set b s.pval := rfl
@[simp] theorem commitPending_pc (b : Reg) : (commitPending b s).pc = s.pc := rfl
@[simp] theorem commitPending_halt (b : Reg) : (commitPending b s).halt = s.halt := rfl
@[simp] theorem commitPending_mem (b : Reg) : (commitPending b s).mem = s.mem := rfl
@[simp] theorem commitPending_latchA (b : Reg) : (commitPending b s).latchA = s.latchA := rfl
@[simp] theorem commitPending_latchB (b : Reg) : (commitPending b s).latchB = s.latchB := rfl
@[simp] theorem commitPending_aluOut (b : Reg) : (commitPending b s).aluOut = s.aluOut := rfl
@[simp] theorem commitPending_ir (b : Reg) : (commitPending b s).ir = s.ir := rfl
@[simp] theorem commitPending_rdata (b : Reg) : (commitPending b s).rdata = s.rdata := rfl
@[simp] theorem commitPending_seq (b : Reg) : (commitPending b s).seq = s.seq := rfl
@[simp] theorem commitPending_bm (b : Reg) : (commitPending b s).bm = s.bm := rfl
@[simp] theorem commitPending_paddr (b : Reg) : (commitPending b s).paddr = s.paddr := rfl
@[simp] theorem commitPending_pval (b : Reg) : (commitPending b s).pval = s.pval := rfl
@[simp] theorem commitPending_rw (b : Reg) : (commitPending b s).rw = s.rw := rfl
@[simp] theorem commitPending_pcs (b : Reg) : (commitPending b s).pcs = s.pcs := rfl
@[simp] theorem commitPending_pci (b : Reg) : (commitPending b s).pci = s.pci := rfl
@[simp] theorem commitPending_st (b : Reg) : (commitPending b s).st = s.st := rfl
@[simp] theorem commitPending_rwSrc (b : Reg) : (commitPending b s).rwSrc = .ext := rfl
@[simp] theorem commitPending_pcsVal (b : Reg) : (commitPending b s).pcsVal = s.pcsVal := rfl

@[simp] theorem storePending_regs (b : Reg) : (storePending b s).regs = s.regs := rfl
@[simp] theorem storePending_pc (b : Reg) : (storePending b s).pc = s.pc := rfl
@[simp] theorem storePending_halt (b : Reg) : (storePending b s).halt = s.halt := rfl
@[simp] theorem storePending_mem (b : Reg) : (storePending b s).mem = s.mem.write s.paddr (s.regs.get b) := rfl
@[simp] theorem storePending_latchA (b : Reg) : (storePending b s).latchA = s.latchA := rfl
@[simp] theorem storePending_latchB (b : Reg) : (storePending b s).latchB = s.latchB := rfl
@[simp] theorem storePending_aluOut (b : Reg) : (storePending b s).aluOut = s.aluOut := rfl
@[simp] theorem storePending_ir (b : Reg) : (storePending b s).ir = s.ir := rfl
@[simp] theorem storePending_rdata (b : Reg) : (storePending b s).rdata = s.rdata := rfl
@[simp] theorem storePending_seq (b : Reg) : (storePending b s).seq = s.seq := rfl
@[simp] theorem storePending_bm (b : Reg) : (storePending b s).bm = s.bm := rfl
@[simp] theorem storePending_paddr (b : Reg) : (storePending b s).paddr = s.paddr := rfl
@[simp] theorem storePending_pval (b : Reg) : (storePending b s).pval = s.pval := rfl
@[simp] theorem storePending_rw (b : Reg) : (storePending b s).rw = s.rw := rfl
@[simp] theorem storePending_pcs (b : Reg) : (storePending b s).pcs = s.pcs := rfl
@[simp] theorem storePending_pci (b : Reg) : (storePending b s).pci = s.pci := rfl
@[simp] theorem storePending_st (b : Reg) : (storePending b s).st = s.st := rfl
@[simp] theorem storePending_rwSrc (b : Reg) : (storePending b s).rwSrc = s.rwSrc := rfl
@[simp] theorem storePending_pcsVal (b : Reg) : (storePending b s).pcsVal = s.pcsVal := rfl

@[simp] theorem settle_regs : (settle s).regs = s.regs := rfl
@[simp] theorem settle_pc : (settle s).pc = s.pc := rfl
@[simp] theorem settle_halt : (settle s).halt = s.halt := rfl
@[simp] theorem settle_mem : (settle s).mem = s.mem := rfl
@[simp] theorem settle_latchA : (settle s).latchA = (routeOperands s).latchA := rfl
@[simp] theorem settle_latchB : (settle s).latchB = (routeOperands s).latchB := rfl
@[simp] theorem settle_aluOut : (settle s).aluOut = aluResult Config.subOrder (opField s.ir) (routeOperands s).latchA (routeOperands s).latchB := rfl
@[simp] theorem settle_ir : (settle s).ir = s.ir := rfl
@[simp] theorem settle_rdata : (settle s).rdata = s.mem.read s.pc := rfl
@[simp] theorem settle_seq : (settle s).seq = s.seq := rfl
@[simp] theorem settle_bm : (settle s).bm = s.bm := rfl
@[simp] theorem settle_paddr : (settle s).paddr = s.paddr := rfl
@[simp] theorem settle_pval : (settle s).pval = s.pval := rfl
@[simp] theorem settle_rw : (settle s).rw = s.rw := rfl
@[simp] theorem settle_pcs : (settle s).pcs = s.pcs := rfl
@[simp] theorem settle_pci : (settle s).pci = s.pci := rfl
@[simp] theorem settle_st : (settle s).st = s.st := rfl
@[simp] theorem settle_rwSrc : (settle s).rwSrc = s.rwSrc := rfl
@[simp] theorem settle_pcsVal : (settle s).pcsVal = s.pcsVal := rfl

end Sys2Proof.Machine
end

