-- ==== Sys2Proof/Laws/Modules.lean ====
section
/-! SUPPORT. What the modules of a tick do: one law per module, each saying everything the module changes. -/

namespace Sys2Proof.Machine

/-- Module 1 changes register B, if its channel is `Requested`, and the channel (R95). -/
theorem writeBack_eq (s : State) :
    writeBack s = { s with
      regs := if s.rw = .requested then s.regs.set (bReg s.ir) (writeBackValue s) else s.regs
      rw := s.rw.advance } := by
  cases h : s.rw <;> simp [writeBack, service, putRw, Channel.advance, h]
  cases s
  simp_all

/-- The value module 4 leaves in `PC` (R98): the set first, then the increment. -/
def counterAfter (s : State) : Byte :=
  let p := if s.pcs = .requested then s.pcsVal else s.pc
  if s.pci = .requested then p + 1 else p

/-- Module 4 changes `PC` and its two channels (R98). -/
theorem programCounter_eq (s : State) :
    programCounter s = { s with pc := counterAfter s, pcs := s.pcs.advance, pci := s.pci.advance } := by
  cases hs : s.pcs <;> cases hi : s.pci <;>
    simp [programCounter, service, putPcs, putPci, Channel.advance, counterAfter, pcPlus, hs, hi]
  all_goals
    cases s
    simp_all

/-- Module 5 changes the byte at `PC`, if its channel is `Requested`, its channel and `RDATA` (R99). -/
theorem memoryPort_eq (s : State) :
    memoryPort s = { s with
      mem := if s.st = .requested then s.mem.write s.pc s.latchB else s.mem
      st := s.st.advance
      rdata := (if s.st = .requested then s.mem.write s.pc s.latchB else s.mem).read s.pc } := by
  cases h : s.st <;> simp [memoryPort, service, putSt, exposeRead, Channel.advance, h]

@[simp] theorem await_acknowledged (t s : State) : await .acknowledged t s = t := rfl
@[simp] theorem await_idle (t s : State) : await .idle t s = s := rfl
@[simp] theorem await_requested (t s : State) : await .requested t s = s := rfl

/-- A clock edge runs a tick on a machine that is not halted, and nothing on one that is (R31, R101). -/
theorem clockTick_eq (s : State) : clockTick s = if s.halt = true then s else tick s := rfl

theorem ticks_add (m n : Nat) (s : State) : ticks (m + n) s = ticks n (ticks m s) := by
  induction m generalizing s with
  | zero => simp [ticks]
  | succ m ih => simp [Nat.succ_add, ticks, ih]

theorem ticks_succ (n : Nat) (s : State) : ticks (n + 1) s = clockTick (ticks n s) := by
  rw [ticks_add]
  rfl

end Sys2Proof.Machine
end

