-- ==== Sys2Proof/Laws/PerInstr.lean ====
section
/-! SUPPORT. Facts about every instruction as syntax, one lemma per constructor. -/

namespace Sys2Proof.Laws.EncodedLength

/-- The opcode byte comes first, and the length follows from the code alone: 2 for codes 8 to 11, else 1
(30_encoding.md R60, R67, R71). -/
def Statement (i : Instr) : Prop :=
  (encode i).head? = some i.opcode ∧ (encode i).length = if hasSecond (opField i.opcode) then 2 else 1

theorem and (a b : Reg) : Statement (.and a b) := by simp [Statement, encode, Instr.opcode, hasSecond]
theorem or (a b : Reg) : Statement (.or a b) := by simp [Statement, encode, Instr.opcode, hasSecond]
theorem xor (a b : Reg) : Statement (.xor a b) := by simp [Statement, encode, Instr.opcode, hasSecond]
theorem add (a b : Reg) : Statement (.add a b) := by simp [Statement, encode, Instr.opcode, hasSecond]
theorem sub (a b : Reg) : Statement (.sub a b) := by simp [Statement, encode, Instr.opcode, hasSecond]
theorem notb (u : BitVec 2) (b : Reg) : Statement (.notb u b) := by
  simp [Statement, encode, Instr.opcode, hasSecond]
theorem shiftb (u : BitVec 2) (b : Reg) : Statement (.shiftb u b) := by
  simp [Statement, encode, Instr.opcode, hasSecond]
theorem lshiftb (u : BitVec 2) (b : Reg) : Statement (.lshiftb u b) := by
  simp [Statement, encode, Instr.opcode, hasSecond]
theorem load (u : BitVec 2) (b : Reg) (k : Byte) : Statement (.load u b k) := by
  simp [Statement, encode, Instr.opcode, hasSecond]
theorem wrt (u : BitVec 2) (b : Reg) (k : Byte) : Statement (.wrt u b k) := by
  simp [Statement, encode, Instr.opcode, hasSecond]
theorem jmpz (u : BitVec 2) (b : Reg) (k : Byte) : Statement (.jmpz u b k) := by
  simp [Statement, encode, Instr.opcode, hasSecond]
theorem jmp (u : BitVec 4) (k : Byte) : Statement (.jmp u k) := by
  simp [Statement, encode, Instr.opcode, hasSecond]
theorem loadl (a b : Reg) : Statement (.loadl a b) := by simp [Statement, encode, Instr.opcode, hasSecond]
theorem wrtl (a b : Reg) : Statement (.wrtl a b) := by simp [Statement, encode, Instr.opcode, hasSecond]
theorem reserved14 (u : BitVec 4) : Statement (.reserved14 u) := by
  simp [Statement, encode, Instr.opcode, hasSecond]
theorem halt (u : BitVec 4) : Statement (.halt u) := by simp [Statement, encode, Instr.opcode, hasSecond]

end Sys2Proof.Laws.EncodedLength
end

