-- ==== Sys2Proof/WellFormed.lean ====
section
/-! DEFINITION. Which instructions the encoder emits (30_encoding.md R65, R68). Every term of `Instr` is an
instruction the hardware runs (R69), so no meaning and no decoding depends on these checks: they say which words
the toolchain writes, not which words the machine accepts (log 8). -/

namespace Sys2Proof

/-- The encoder writes 0 in unused bits (R65). -/
def Instr.unusedBitsZero : Instr → Bool
  | .and _ _ => true
  | .or _ _ => true
  | .xor _ _ => true
  | .add _ _ => true
  | .sub _ _ => true
  | .notb u _ => u == 0
  | .shiftb u _ => u == 0
  | .lshiftb u _ => u == 0
  | .load u _ _ => u == 0
  | .wrt u _ _ => u == 0
  | .jmpz u _ _ => u == 0
  | .jmp u _ => u == 0
  | .loadl _ _ => true
  | .wrtl _ _ => true
  | .reserved14 u => u == 0
  | .halt u => u == 0

/-- Code 14 is not assigned and the encoder never emits it (R68). -/
def Instr.assigned : Instr → Bool
  | .and _ _ => true
  | .or _ _ => true
  | .xor _ _ => true
  | .add _ _ => true
  | .sub _ _ => true
  | .notb _ _ => true
  | .shiftb _ _ => true
  | .lshiftb _ _ => true
  | .load _ _ _ => true
  | .wrt _ _ _ => true
  | .jmpz _ _ _ => true
  | .jmp _ _ => true
  | .loadl _ _ => true
  | .wrtl _ _ => true
  | .reserved14 _ => false
  | .halt _ => true

/-- An instruction as the encoder writes it. -/
def Instr.wellFormed (i : Instr) : Bool :=
  i.unusedBitsZero && i.assigned

end Sys2Proof
end

