-- ==== Sys2Proof/Tests/Slice0.lean ====
section
/-! SUPPORT. Tests. Expected results come from spec/95_test_vectors.md and the rules named, not from the model.
A theorem named `witness_<Statement>` shows a state and operands that meet the hypotheses of that obligation. -/

namespace Sys2Proof.Tests

open Sys2Proof Sys2Proof.Machine

/-- A launch with the image at 0 and the four registers given; memory beyond the image reads 0. -/
def at0 (image : List Byte) (r0 r1 r2 r3 : Byte) : State :=
  State.launch { rInit := { r0 := r0, r1 := r1, r2 := r2, r3 := r3 }, memInit := Launch.plain.memInit.loadImage 0 image }

/-- The same with one more byte of memory. -/
def withByte (a v : Byte) (s : State) : State := { s with mem := s.mem.write a v }

/-- The same with the counter elsewhere. -/
def atPc (p : Byte) (s : State) : State := { s with pc := p }

/-- The next state of one step, if there is one. -/
def stepped (s : State) : Option State :=
  match step s with
  | .next t => some t
  | .fault _ => none
  | .refused _ => none

/-- Registers and counter after one step. -/
def regsAfter (s : State) : Option (Regs × Byte) := (stepped s).map fun t => (t.regs, t.pc)

/-- The byte at `a` and the counter after one step. -/
def byteAfter (a : Byte) (s : State) : Option (Byte × Byte) := (stepped s).map fun t => (t.mem.read a, t.pc)

/-! ## Well-formedness: one ill-formed term for each check -/

theorem test_wellFormed_accepts_add : (Instr.add .r0 .r1).wellFormed = true := by decide
theorem test_wellFormed_refuses_unused_notb : (Instr.notb 3 .r2).wellFormed = false := by decide
theorem test_wellFormed_refuses_unused_shiftb : (Instr.shiftb 1 .r2).wellFormed = false := by decide
theorem test_wellFormed_refuses_unused_lshiftb : (Instr.lshiftb 2 .r2).wellFormed = false := by decide
theorem test_wellFormed_refuses_unused_load : (Instr.load 1 .r0 4).wellFormed = false := by decide
theorem test_wellFormed_refuses_unused_wrt : (Instr.wrt 1 .r0 4).wellFormed = false := by decide
theorem test_wellFormed_refuses_unused_jmpz : (Instr.jmpz 2 .r0 4).wellFormed = false := by decide
theorem test_wellFormed_refuses_unused_jmp : (Instr.jmp 0b1111 4).wellFormed = false := by decide
theorem test_wellFormed_refuses_unused_halt : (Instr.halt 1).wellFormed = false := by decide
theorem test_wellFormed_refuses_code14 : (Instr.reserved14 0).wellFormed = false := by decide

/-! ## Decoding: a word of every constructor written out bit by bit (30_encoding.md R62, R64; vectors 2.6) -/

theorem test_decode_and : decode [0b00000110] = .ok (.and .r1 .r2, []) := by decide
theorem test_decode_or : decode [0b00011011] = .ok (.or .r2 .r3, []) := by decide
theorem test_decode_xor : decode [0b00100111] = .ok (.xor .r1 .r3, []) := by decide
theorem test_decode_add : decode [0b00111001] = .ok (.add .r2 .r1, []) := by decide
theorem test_decode_sub : decode [0b01001110] = .ok (.sub .r3 .r2, []) := by decide
theorem test_decode_notb : decode [0b01011110] = .ok (.notb 0b11 .r2, []) := by decide
theorem test_decode_shiftb : decode [0b01100011] = .ok (.shiftb 0 .r3, []) := by decide
theorem test_decode_lshiftb : decode [0b01110110] = .ok (.lshiftb 0b01 .r2, []) := by decide
theorem test_decode_load : decode [0b10000010, 0x04, 0xF0] = .ok (.load 0 .r2 0x04, [0xF0]) := by decide
theorem test_decode_wrt : decode [0b10010001, 0x01] = .ok (.wrt 0 .r1 0x01, []) := by decide
theorem test_decode_jmpz : decode [0b10101011, 0x40] = .ok (.jmpz 0b10 .r3 0x40, []) := by decide
theorem test_decode_jmp : decode [0b10111111, 0x04] = .ok (.jmp 0b1111 0x04, []) := by decide
theorem test_decode_loadl : decode [0b11000001, 0xD1] = .ok (.loadl .r0 .r1, [0xD1]) := by decide
theorem test_decode_wrtl : decode [0b11010110] = .ok (.wrtl .r1 .r2, []) := by decide
theorem test_decode_code14 : decode [0b11101010] = .ok (.reserved14 0b1010, []) := by decide
theorem test_decode_halt : decode [0b11110101] = .ok (.halt 0b0101, []) := by decide
theorem test_decode_rejects_empty : decode [] = .error .noOpcodeByte := by decide
theorem test_decode_rejects_missing_operand : decode [0b10000010] = .error .noOperandByte := by decide
theorem test_tableWord_load : decodeTableWord 16 0x7782 = some (.load 0 .r2 0x77) := by decide
theorem test_tableWord_upper_bits_zero : decodeTableWord 8 0x7782 = some (.load 0 .r2 0) := by decide
theorem test_encode_jmpz : encode (.jmpz 0b10 .r3 0x40) = [0b10101011, 0x40] := by decide

/-! ## ALU instructions (vectors 2.1) -/

theorem test_and : regsAfter (at0 [0x01] 10 12 0 0) = some (⟨10, 8, 0, 0⟩, 1) := by decide
theorem test_and_writes_register_b : regsAfter (at0 [0x04] 12 10 0 0) = some (⟨8, 10, 0, 0⟩, 1) := by decide
theorem test_or : regsAfter (at0 [0x11] 10 12 0 0) = some (⟨10, 14, 0, 0⟩, 1) := by decide
theorem test_or_copies : regsAfter (at0 [0x14] 0 66 0 0) = some (⟨66, 66, 0, 0⟩, 1) := by decide
theorem test_xor : regsAfter (at0 [0x26] 0 255 15 0) = some (⟨0, 255, 240, 0⟩, 1) := by decide
theorem test_xor_clears : regsAfter (at0 [0x2A] 0 0 119 0) = some (⟨0, 0, 0, 0⟩, 1) := by decide
theorem test_add_wraps : regsAfter (at0 [0x31] 200 100 0 0) = some (⟨200, 44, 0, 0⟩, 1) := by decide
theorem test_add_doubles : regsAfter (at0 [0x35] 0 129 0 0) = some (⟨0, 2, 0, 0⟩, 1) := by decide
theorem test_sub_orders : (subBy .aMinusB 3 5, subBy .bMinusA 3 5) = (254, 2) := by decide
theorem test_sub_steps_and_keeps_a : (stepped (at0 [0x41] 5 3 7 9)).map (fun t => (t.regs.r0, t.regs.r2, t.pc)) =
    some (5, 7, 1) := by decide
theorem test_notb_ignores_unused : regsAfter (at0 [0x5D] 1 255 3 4) = some (⟨1, 0, 3, 4⟩, 1) := by decide
theorem test_notb : regsAfter (at0 [0x52] 0 0 15 0) = some (⟨0, 0, 240, 0⟩, 1) := by decide
theorem test_shiftb : regsAfter (at0 [0x61] 0 129 0 0) = some (⟨0, 64, 0, 0⟩, 1) := by decide
theorem test_shiftb_keeps_no_sign : regsAfter (at0 [0x6E] 0 0 128 0) = some (⟨0, 0, 64, 0⟩, 1) := by decide
theorem test_lshiftb : regsAfter (at0 [0x73] 0 0 0 129) = some (⟨0, 0, 0, 2⟩, 1) := by decide
theorem test_lshiftb_ignores_unused : regsAfter (at0 [0x76] 0 0 64 0) = some (⟨0, 0, 128, 0⟩, 1) := by decide

/-! ## Memory instructions (vectors 2.2, 2.4) -/

theorem test_load : regsAfter (withByte 4 0x77 (at0 [0x8E, 0x04] 0 0 0 0)) = some (⟨0, 0, 0x77, 0⟩, 2) := by decide
theorem test_load_across_the_top : regsAfter (atPc 255 (withByte 255 0x81 (withByte 0x40 0xAB (at0 [0x40] 0 0 0 0)))) =
    some (⟨0, 0xAB, 0, 0⟩, 1) := by decide
theorem test_wrt : byteAfter 5 (at0 [0x92, 0x05] 0 0 0x33 0) = some (0x33, 2) := by decide
theorem test_wrt_own_operand : byteAfter 1 (at0 [0x91, 0x01] 0 0xEE 0 0) = some (0xEE, 2) := by decide
theorem test_loadl_same_register : regsAfter (withByte 4 0x55 (at0 [0xC5] 0 4 0 0)) = some (⟨0, 0x55, 0, 0⟩, 1) := by
  decide
theorem test_loadl_address_from_a : regsAfter (withByte 4 0x55 (at0 [0xC1] 4 9 0 0)) = some (⟨4, 0x55, 0, 0⟩, 1) := by
  decide
theorem test_wrtl : byteAfter 4 (withByte 4 0x55 (at0 [0xD1] 4 0x66 0 0)) = some (0x66, 1) := by decide
theorem test_wrtl_same_register : byteAfter 0x30 (at0 [0xDA] 0 0 0x30 0) = some (0x30, 1) := by decide

/-! ## Jumps (vectors 2.3, negative vectors 5) -/

theorem test_jmpz_taken : regsAfter (withByte 4 9 (at0 [0xA1, 0x04] 0 0 0 0)) = some (⟨0, 0, 0, 0⟩, 9) := by decide
theorem test_jmpz_tests_all_bits : regsAfter (withByte 4 9 (at0 [0xA1, 0x04] 0 0x80 0 0)) =
    some (⟨0, 0x80, 0, 0⟩, 2) := by decide
theorem test_jmp_through_memory : regsAfter (withByte 4 9 (at0 [0xBF, 0x04] 1 2 3 4)) = some (⟨1, 2, 3, 4⟩, 9) := by
  decide
theorem test_jmp_own_operand : regsAfter (at0 [0xB0, 0x01] 1 2 3 4) = some (⟨1, 2, 3, 4⟩, 1) := by decide

/-! ## Halt and code 14 (vectors 2.5) -/

theorem test_halt : (stepped (withByte 7 0x99 (at0 [0xF0, 0x07] 1 2 3 4))).map
    (fun t => (t.halt, t.pc, t.seq, t.bm, t.paddr, t.pval)) = some (true, 7, .s18, 0, 7, 0x99) := by decide
theorem test_halt_is_final : ((stepped (at0 [0xFF, 0x07] 1 2 3 4)).bind stepped) = none := by decide
theorem test_code14_sticks : (stepped (at0 [0xE0, 0x03] 1 2 3 4)).map (fun t => (t.halt, t.pc, t.seq, t.stuck)) =
    some (false, 3, .s7, true) := by decide
theorem test_code14_goes_on : ((stepped (at0 [0xE0, 0x03] 1 2 3 4)).bind stepped).map
    (fun t => (t.halt, t.pc, t.seq, t.pcs)) = some (false, 3, .s7, .idle) := by decide

/-! ## Ticks (41_control_sequencer.md R147) and memory -/

theorem test_tick1_fetches : (fun t : State => (t.seq, t.ir, t.rdata, t.latchA, t.latchB, t.aluOut))
    (tick (at0 [0x31, 0xF0, 0x05] 3 250 0 0)) = (.s1, 0x31, 0x31, 3, 3, 3) := by decide
theorem test_tick3_commits_before_recomputing : (fun t : State => (t.seq, t.regs.r1, t.aluOut, t.rw, t.pci))
    (ticks 3 (at0 [0x31, 0xF0, 0x05] 3 250 0 0)) = (.s17, 253, 0, .acknowledged, .requested) := by decide
theorem test_store_before_read : (fun t : State => (t.rdata, t.mem.read 0))
    (tick { at0 [0xD1] 4 0x66 0 0 with seq := .s10, st := .requested, ir := 0xD1 }) = (0x66, 0x66) := by decide
theorem test_write_of_unlisted_byte_removes : (Launch.plain.memInit.write 7 3).write 7 0 = Launch.plain.memInit := by
  decide
theorem test_reset_edge_keeps_memory : (resetEdge ⟨1, 2, 3, 4⟩ (atPc 9 (at0 [0x31] 5 6 7 8))) = at0 [0x31] 1 2 3 4 := by
  decide
theorem test_diag_is_a_level : (diagFires true 5 5, diagFires true 5 6, diagFires false 5 5) = (true, false, false) := by
  decide

/-! ## Witnesses: states and operands that meet the hypotheses of the obligations -/

/-- `add r0 r1`, `halt` and a data byte (R147). -/
def demo : State := at0 [0x31, 0xF0, 0x05] 3 250 0 0

/-- A machine halted by `halt` at 0. -/
def halted : State := { at0 [0xF0] 1 2 3 4 with halt := true, seq := .s18, ir := 0xF0 }

/-- A machine stuck on code 14 at 0. -/
def stuck14 : State := { at0 [0xE0, 0x03] 1 2 3 4 with seq := .s7, ir := 0xE0, pc := 3 }

/-- A state inside an instruction, with the given channels. -/
def inside (q : Seq) (o : Byte) (src : RwSrc) (rw pcs pci st : Channel) : State :=
  { demo with seq := q, ir := o, rwSrc := src, rw := rw, pcs := pcs, pci := pci, st := st }

theorem witness_EncodeInvertsDecode : decode [0x82, 0x04, 0xF0] = .ok (.load 0 .r2 0x04, [0xF0]) := by decide
theorem witness_StepRunsTheDecodedInstruction : demo.atFetch = true ∧
    decode [demo.mem.read demo.pc, demo.mem.read (demo.pc + 1)] = .ok (.add .r0 .r1, [0xF0]) := by decide
theorem witness_StepRunsThePlacedWord : decodeTableWord 16 0x0482 = some (.load 0 .r2 0x04) := by decide
theorem witness_HaltedMachineStandsStill : halted.halt = true := by decide
theorem witness_StepElsewhereIsOneTick : stuck14.halt = false ∧ stuck14.atFetch = false := by decide
theorem witness_StepIsTheTicksOfItsInstruction : demo.atFetch = true ∧
    decode (fetchBytes demo) = .ok (.add .r0 .r1, [0xF0]) := by decide
theorem witness_PathOfEachInstruction : demo.atFetch = true ∧ decode (fetchBytes demo) = .ok (.add .r0 .r1, [0xF0]) ∧
    (pathOf (.add .r0 .r1) demo)[3]? = some .s17 ∧ (counterPathOf (.add .r0 .r1) demo)[3]? = some 1 := by decide
theorem witness_PathOfEachInstruction_code14 : (at0 [0xE0, 0x03] 1 2 3 4).atFetch = true ∧
    decode (fetchBytes (at0 [0xE0, 0x03] 1 2 3 4)) = .ok (.reserved14 0, [0x03]) := by decide
theorem witness_StepKeepsTheInvariant : demo.inv = true ∧ ∃ t, step demo = .next t := ⟨by decide, _, rfl⟩
theorem witness_TickKeepsTheDiscipline : demo.halt = false ∧ demo.disciplined = true := by decide
theorem witness_LaunchMeetsTheInvariant : (Launch.plain.memInit.write 255 7).wf = true := by decide
/-- Disciplined states in which the sequencer waits: for `PCI`, `PCS`, `ST` and `RW` in turn. -/
def waiting : List State :=
  [inside .s5 0x80 .alu .idle .idle .requested .idle, inside .s13 0x80 .ext .idle .acknowledged .requested .idle,
   inside .s17 0x31 .alu .acknowledged .idle .requested .idle, inside .s12 0x80 .ext .idle .requested .idle .idle,
   inside .s16 0xB0 .alu .idle .requested .idle .idle, inside .s7 0xB0 .alu .idle .requested .idle .idle,
   inside .s10 0x90 .alu .idle .idle .idle .requested, inside .s19 0x31 .alu .requested .idle .idle .idle,
   inside .s20 0x80 .ext .requested .idle .idle .idle]

theorem witness_AwaitedAcknowledgementIsThere :
    waiting.map (fun s => s.seq) = [.s5, .s13, .s17, .s12, .s16, .s7, .s10, .s19, .s20] ∧
    waiting.map (fun s => (s.halt, s.disciplined)) = List.replicate 9 (false, true) ∧ opField 0xB0 ≠ 14 := by decide

/-- States in which the sequencer makes a request on `RW`, `PCS`, `PCI` and `ST` in turn, each disciplined. -/
def requesting : List State :=
  [inside .s1 0x31 .alu .idle .idle .idle .idle, inside .s11 0x80 .ext .acknowledged .idle .idle .idle,
   inside .s12 0x80 .ext .idle .requested .idle .idle, inside .s9 0x90 .alu .idle .acknowledged .idle .idle]

theorem witness_RequestsAreMadeOnIdleChannels :
    requesting.map (fun s => (s.halt, s.disciplined)) = List.replicate 4 (false, true) ∧
    requesting.map (fun s => (tick s).chans) =
      [⟨.requested, .idle, .idle, .idle⟩, ⟨.idle, .requested, .idle, .idle⟩, ⟨.idle, .acknowledged, .requested, .idle⟩,
       ⟨.idle, .idle, .idle, .requested⟩] ∧ demo.seq = .s0 ∧ demo.disciplined = true := by decide
theorem witness_RequestIsServedOneTickLater :
    requesting.map (fun s => (s.halt, s.disciplined)) = List.replicate 4 (false, true) := by decide
theorem witness_WaitingStateHolds :
    waiting.map (fun s => (s.seq, decide (s.chans.pci ≠ .acknowledged))) =
      [(.s5, true), (.s13, true), (.s17, true), (.s12, true), (.s16, true), (.s7, true), (.s10, true), (.s19, true),
       (.s20, true)] ∧
    waiting.all (fun s => (s.seq == .s13 || s.pcs != .acknowledged) && s.st != .acknowledged &&
      (s.seq == .s17 || s.rw != .acknowledged)) = true := by decide
theorem witness_CanonicalMemoriesThatReadAlikeAreEqual : (Launch.plain.memInit.write 3 9).wf = true ∧
    ∀ a, (Launch.plain.memInit.write 3 9).read a = (Launch.plain.memInit.write 3 9).read a :=
  ⟨by decide, fun _ => rfl⟩
theorem witness_LoadedImageIsReadBack : ([0x31, 0xF0, 0x05] : List Byte).length ≤ 256 ∧
    (List.replicate 256 (0xFF : Byte)).length ≤ 256 :=
  ⟨by decide, le_of_eq List.length_replicate⟩
theorem witness_MicroStateIsUnobservable : demo.atFetch = true ∧
    { demo with ir := 0xC7, latchA := 9, pval := 8, pci := .acknowledged, rwSrc := .ext }.atFetch = true ∧
    demo.arch = { demo with ir := 0xC7, latchA := 9, pval := 8, pci := .acknowledged, rwSrc := .ext }.arch := by decide
theorem witness_AndWritesTheConjunction : (at0 [] 0b1010 0b1100 0 7).regs.get .r0 = 0b1010 ∧
    (at0 [] 0b1010 0b1100 0 7).regs.get .r1 = 0b1100 ∧ (at0 [] 0b1010 0b1100 0 7).regs.get .r2 = 0 := by decide
theorem witness_OrWritesTheDisjunction : (at0 [] 0b1010 0b1100 0 7).regs.get .r0 = 0b1010 ∧
    (at0 [] 0b1010 0b1100 0 7).regs.get .r1 = 0b1100 ∧ (at0 [] 0b1010 0b1100 0 7).regs.get .r2 = 0 := by decide
theorem witness_XorWritesTheExclusiveOr : (at0 [] 0b1010 0b1100 0 7).regs.get .r0 = 0b1010 ∧
    (at0 [] 0b1010 0b1100 0 7).regs.get .r1 = 0b1100 := by decide
theorem witness_AddWritesTheSumModulo256 : (at0 [] 255 1 200 100).regs.get .r0 = 255 ∧
    (at0 [] 255 1 200 100).regs.get .r1 = 1 ∧ (at0 [] 255 1 200 100).regs.get .r2 = 200 ∧
    (at0 [] 255 1 200 100).regs.get .r3 = 100 ∧ (at0 [] 3 250 0 0).regs.get .r0 = 3 ∧
    (at0 [] 3 250 0 0).regs.get .r1 = 250 := by decide
theorem witness_SubWritesTheDifferenceInTheOpenOrder : (at0 [] 5 3 0 0).regs.get .r0 = 5 ∧
    (at0 [] 5 3 0 0).regs.get .r1 = 3 ∧ (at0 [] 5 3 0 0).regs.get .r2 = 0 := by decide
theorem witness_NotbWritesTheComplement : (at0 [] 0 255 15 0).regs.get .r0 = 0 ∧
    (at0 [] 0 255 15 0).regs.get .r1 = 255 ∧ (at0 [] 0 255 15 0).regs.get .r2 = 0b00001111 ∧
    ∃ t, exec (.notb 3 .r2) (at0 [] 0 255 15 0) = .next t := ⟨by decide, by decide, by decide, _, rfl⟩
theorem witness_ShiftbHalvesRegisterB : (at0 [] 1 0 0x80 255).regs.get .r0 = 1 ∧
    (at0 [] 1 0 0x80 255).regs.get .r1 = 0 ∧ (at0 [] 1 0 0x80 255).regs.get .r2 = 0x80 ∧
    (at0 [] 1 0 0x80 255).regs.get .r3 = 255 ∧ (at0 [] 0x81 0 0 0).regs.get .r0 = 0x81 := by decide
theorem witness_LshiftbDoublesRegisterB : (at0 [] 0x81 0 0x80 255).regs.get .r0 = 0x81 ∧
    (at0 [] 0x81 0 0x80 255).regs.get .r1 = 0 ∧ (at0 [] 0x81 0 0x80 255).regs.get .r2 = 0x80 ∧
    (at0 [] 0x81 0 0x80 255).regs.get .r3 = 0xFF := by decide
theorem witness_AluInstructionParksTheSequencer : (opField (Instr.and .r0 .r0).opcode).toNat < 8 ∧
    (opField (Instr.lshiftb 3 .r3).opcode).toNat < 8 := by decide
theorem witness_UnassignedArithmeticIsZeroAndNeverCommitted : 8 ≤ (8#4).toNat ∧ 8 ≤ (15#4).toNat ∧
    (inside .s19 0x71 .alu .requested .idle .idle .idle).halt = false ∧
    (inside .s19 0x71 .alu .requested .idle .idle .idle).disciplined = true := by decide

/-- `wrt r1 $k` onto the next opcode byte (vectors 2.2, last row). -/
def storing : State := at0 [0x91, 0x02, 0x00] 0 0xF0 0 0

theorem witness_StoreIsSeenByTheNextFetch : storing.atFetch = true ∧
    decode (fetchBytes storing) = .ok (.wrt 0 .r1 0x02, []) ∧
    ∃ t u, step storing = .next t ∧ step t = .next u := ⟨by decide, by decide, _, _, rfl, rfl⟩
theorem witness_StoreIsSeenByTheNextFetch_wrtl : (at0 [0xD1] 1 0xF0 0 0).atFetch = true ∧
    decode (fetchBytes (at0 [0xD1] 1 0xF0 0 0)) = .ok (.wrtl .r0 .r1, [0]) ∧
    ∃ t u, step (at0 [0xD1] 1 0xF0 0 0) = .next t ∧ step t = .next u := ⟨by decide, by decide, _, _, rfl, rfl⟩
theorem witness_Code14GetsStuck : demo.halt = false := by decide
theorem witness_StuckIsForEver : stuck14.stuck = true := by decide
theorem witness_HaltAloneRaisesTheFlag : (at0 [0xF0] 1 2 3 4).atFetch = true ∧
    decode (fetchBytes (at0 [0xF0] 1 2 3 4)) = .ok (.halt 0, [0]) ∧ ∃ t, step (at0 [0xF0] 1 2 3 4) = .next t :=
  ⟨by decide, by decide, _, rfl⟩

end Sys2Proof.Tests
end

/-! # The instruction level refines the tick level (00_scope.md R6)

Between two ticks of an instruction the latches, `ALU_OUT` and `RDATA` are always what modules 2, 3 and 5 made of the
rest of the state. So every such state is a `flight`: a state whose routed fields do not matter, put into a state of
the sequencer with given channels, then settled. There is one law per state of the sequencer, the laws compose to the
phases the meanings are written in (`visit`, `commitPending`, `storePending`, `retireNext`, `retireJump`,
`retireAlu`), and the phases compose to the instructions. -/

namespace Sys2Proof

/-! ## Decoding a fetched word -/

theorem byteRR_fields (o : Byte) : byteRR (opField o) (aReg o) (bReg o) = o := by
  simpa [byteRR, aReg, bReg] using opcodeByte_fields o

theorem byteR_fields (o : Byte) : byteR (opField o) (aBits o) (bReg o) = o := by
  simpa [byteR, bReg] using opcodeByte_fields o

/-- What the decoder makes of an opcode byte and an operand byte has these bytes as its encoding (30_encoding.md R62,
R64): the operand byte belongs to it for the memops alone. -/
theorem encode_instrOf (o k : Byte) : encode (instrOf o k) = if hasSecond (opField o) then [o, k] else [o] := by
  have hRR := byteRR_fields o
  have hR := byteR_fields o
  have hN := byteN_fields o
  have hlt := (opField o).isLt
  have hop : opField o = BitVec.ofNat 4 (opField o).toNat := by simp
  rw [hop] at hRR hR hN
  unfold instrOf hasSecond
  generalize (opField o).toNat = n at hRR hR hN hlt
  interval_cases n <;> simp only [encode, Instr.opcode, hRR, hR, hN] <;> rfl

/-- The bytes the decoder consumed are the encoding of what it read. -/
theorem encode_append_of_decode {bytes rest : List Byte} {i : Instr} (h : decode bytes = .ok (i, rest)) :
    encode i ++ rest = bytes := by
  match bytes with
  | [] => simp [decode] at h
  | o :: tail =>
    cases h2 : hasSecond (opField o) with
    | false =>
      obtain ⟨rfl, rfl⟩ : instrOf o 0 = i ∧ tail = rest := by simpa [decode, h2] using h
      simp [encode_instrOf, h2]
    | true =>
      match tail with
      | [] => simp [decode, h2] at h
      | k :: tail' =>
        obtain ⟨rfl, rfl⟩ : instrOf o k = i ∧ tail' = rest := by simpa [decode, h2] using h
        simp [encode_instrOf, h2]

theorem encode_eq_cons (i : Instr) : ∃ tail, encode i = i.opcode :: tail := by
  cases i <;> exact ⟨_, rfl⟩

end Sys2Proof

namespace Sys2Proof.Machine

/-! ## The four channels together -/

theorem Channel.advance_eq_idle_iff (c : Channel) : c.advance = .idle ↔ c ≠ .requested := by
  cases c <;> decide

theorem Channel.advance_eq_acknowledged_iff (c : Channel) : c.advance = .acknowledged ↔ c = .requested := by
  cases c <;> decide

/-- The four channels after their modules have run (40_tick_modules.md R93). -/
def Chans.advance (c : Chans) : Chans :=
  { rw := c.rw.advance, pcs := c.pcs.advance, pci := c.pci.advance, st := c.st.advance }

/-- Only `RW` is in use. -/
def Chans.onRw (c : Channel) : Chans := { Chans.allIdle with rw := c }

/-- Only `PCS` is in use. -/
def Chans.onPcs (c : Channel) : Chans := { Chans.allIdle with pcs := c }

/-- Only `PCI` is in use. -/
def Chans.onPci (c : Channel) : Chans := { Chans.allIdle with pci := c }

/-- Only `ST` is in use. -/
def Chans.onSt (c : Channel) : Chans := { Chans.allIdle with st := c }

/-- All channels are `Idle` after the services exactly if none was `Requested`. -/
theorem Chans.advance_eq_allIdle_iff (c : Chans) : c.advance = .allIdle ↔
    c.rw ≠ .requested ∧ c.pcs ≠ .requested ∧ c.pci ≠ .requested ∧ c.st ≠ .requested := by
  simp [Chans.advance, Chans.allIdle, Channel.advance_eq_idle_iff]

/-! ## States between two ticks -/

/-- The state with the sequencer in `q` and the channels `c`. -/
def State.place (q : Seq) (c : Chans) (t : State) : State :=
  { t with seq := q, rw := c.rw, pcs := c.pcs, pci := c.pci, st := c.st }

/-- The state between two ticks of an instruction: the sequencer in `q`, the channels `c`, and the routed fields as the
last tick left them, that is, as they follow from the registers, the memory, `PC` and `IR` of `t`. -/
def flight (q : Seq) (c : Chans) (t : State) : State := settle (t.place q c)

/-- Routing forgets the routed fields of the tick before, under the same opcode latch: it overwrites those the code
uses, and the others were not touched. -/
theorem settle_update_settle (t : State) (x : Regs) (p : Byte) (m : Memory) :
    settle { settle t with regs := x, pc := p, mem := m } = settle { t with regs := x, pc := p, mem := m } := by
  cases h2 : needsTwo (opField t.ir) <;> cases h1 : needsOne (opField t.ir) <;>
    simp [settle, routeOperands, computeAlu, exposeRead, h1, h2]

/-! ## One tick -/

/-- The registers after module 1 (R95) has served the channels `c`. -/
def servicedRegs (c : Chans) (t : State) : Regs :=
  if c.rw = .requested then t.regs.set (bReg t.ir) (writeBackValue t) else t.regs

/-- The memory after module 5 (R99) has served the channels `c`, with the registers `x` and `PC = p` left by the modules
before it: it stores latch `B` as routed in this tick. -/
def servicedMem (c : Chans) (t : State) (x : Regs) (p : Byte) : Memory :=
  if c.st = .requested then t.mem.write p (routeOperands { t with regs := x }).latchB else t.mem

/-- What the services of one tick do to registers, `PC` and memory. -/
def serviced (c : Chans) (t : State) : State :=
  { t with
    regs := servicedRegs c t
    pc := counterAfter (t.place t.seq c)
    mem := servicedMem c t (servicedRegs c t) (counterAfter (t.place t.seq c)) }

/-- Modules 1 to 5 serve the channels, then settle the routed fields (R91). -/
theorem datapath_place (q : Seq) (c : Chans) (t : State) :
    datapath (t.place q c) = flight q c.advance (serviced c t) := by
  rw [datapath, memoryPort_eq, programCounter_eq, writeBack_eq]
  rfl

theorem tick_place (q : Seq) (c : Chans) (t : State) :
    tick (t.place q c) = sequencer (flight q c.advance (serviced c t)) := by
  rw [tick, datapath_place]

/-- Without a request no service does anything. -/
theorem serviced_of_advance_eq_allIdle {c : Chans} (hc : c.advance = .allIdle) (t : State) : serviced c t = t := by
  obtain ⟨hrw, hpcs, hpci, hst⟩ := (Chans.advance_eq_allIdle_iff c).mp hc
  simp [serviced, servicedRegs, servicedMem, counterAfter, State.place, hrw, hpcs, hpci, hst]

theorem clockTick_place_quiet {q : Seq} {c : Chans} {t : State} (ht : t.halt = false) (hc : c.advance = .allIdle) :
    clockTick (t.place q c) = sequencer (flight q .allIdle t) := by
  rw [clockTick_eq, if_neg (by simp [State.place, ht]), tick_place, hc, serviced_of_advance_eq_allIdle hc]

/-- A tick inside an instruction: the services act on the settled state, and module 6 sees the result settled anew. -/
theorem clockTick_flight {q : Seq} {c : Chans} {t : State} (ht : t.halt = false) :
    clockTick (flight q c t) = sequencer (flight q c.advance
      { t with
        regs := (serviced c (settle t)).regs
        pc := (serviced c (settle t)).pc
        mem := (serviced c (settle t)).mem }) := by
  have hp : flight q c t = (settle t).place q c := rfl
  rw [clockTick_eq, if_neg (by simp [hp, State.place, ht]), hp, tick_place]
  exact congrArg sequencer (settle_update_settle (t.place q c.advance) _ _ _)

theorem clockTick_flight_quiet {q : Seq} {c : Chans} {t : State} (ht : t.halt = false) (hc : c.advance = .allIdle) :
    clockTick (flight q c t) = sequencer (flight q .allIdle t) := by
  rw [clockTick_flight ht, hc, serviced_of_advance_eq_allIdle hc]
  rfl

/-! ## One law per state of the sequencer (41_control_sequencer.md R124 to R141)

Each law names the channels with which the state is entered (R145). -/

section Rules
variable {t : State} (ht : t.halt = false)
include ht

theorem clockTick_s3 (ha : needsTwo (opField t.ir) = true) :
    clockTick (flight .s3 .allIdle t) = flight .s6 .allIdle { t with paddr := t.regs.get (aReg t.ir) } := by
  have hv : (settle t).latchA = t.regs.get (aReg t.ir) := if_pos ha
  rw [clockTick_flight_quiet ht rfl, ← hv]
  rfl

theorem clockTick_s4 : clockTick (flight .s4 .allIdle t) = flight .s5 (Chans.onPci .requested) t := by
  rw [clockTick_flight_quiet ht rfl]
  rfl

theorem clockTick_s5 : clockTick (flight .s5 (Chans.onPci .requested) t) =
    flight .s6 (Chans.onPci .acknowledged)
      { t with pc := t.pc + 1, paddr := t.mem.read (t.pc + 1) } := by
  rw [clockTick_flight ht]
  rfl

theorem clockTick_s6 {c : Chans} (hc : c.advance = .allIdle) : clockTick (flight .s6 c t) =
    flight .s7 (Chans.onPcs .requested) { t with pcsVal := t.paddr } := by
  rw [clockTick_flight_quiet ht hc]
  rfl

theorem clockTick_s7 : clockTick (flight .s7 (Chans.onPcs .requested) t) =
    flight (dispatchSeq (opField t.ir) (settle t).latchB) (Chans.onPcs .acknowledged)
      { t with pc := t.pcsVal, pval := t.mem.read t.pcsVal } := by
  rw [clockTick_flight ht]
  rfl

theorem clockTick_s8 : clockTick (flight .s8 (Chans.onPcs .acknowledged) t) =
    flight .s20 (Chans.onRw .requested) { t with rwSrc := .ext } := by
  rw [clockTick_flight_quiet ht rfl]
  rfl

theorem clockTick_s9 : clockTick (flight .s9 (Chans.onPcs .acknowledged) t) =
    flight .s10 (Chans.onSt .requested) t := by
  rw [clockTick_flight_quiet ht rfl]
  rfl

theorem clockTick_s10 (hb : (needsTwo (opField t.ir) || needsOne (opField t.ir)) = true) :
    clockTick (flight .s10 (Chans.onSt .requested) t) =
      flight .s11 (Chans.onSt .acknowledged)
        { t with mem := t.mem.write t.pc (t.regs.get (bReg t.ir)) } := by
  have hv : (routeOperands (settle t)).latchB = t.regs.get (bReg t.ir) := if_pos hb
  rw [clockTick_flight ht, ← hv]
  rfl

theorem clockTick_s11 {c : Chans} (hc : c.advance = .allIdle) : clockTick (flight .s11 c t) =
    flight .s12 (Chans.onPcs .requested) { t with pcsVal := t.bm } := by
  rw [clockTick_flight_quiet ht hc]
  rfl

theorem clockTick_s12_of_one (hop : hasSecond (opField t.ir) = false) :
    clockTick (flight .s12 (Chans.onPcs .requested) t) =
      flight .s17 { Chans.onPci .requested with pcs := .acknowledged } { t with pc := t.pcsVal } := by
  have hq : (if hasSecond (opField t.ir) then Seq.s13 else .s17) = .s17 := by simp [hop]
  rw [clockTick_flight ht, ← hq]
  rfl

theorem clockTick_s12_of_two (hop : hasSecond (opField t.ir) = true) :
    clockTick (flight .s12 (Chans.onPcs .requested) t) =
      flight .s13 { Chans.onPci .requested with pcs := .acknowledged } { t with pc := t.pcsVal } := by
  have hq : (if hasSecond (opField t.ir) then Seq.s13 else .s17) = .s13 := by simp [hop]
  rw [clockTick_flight ht, ← hq]
  rfl

theorem clockTick_s13 :
    clockTick (flight .s13 { Chans.onPci .requested with pcs := .acknowledged } t) =
      flight .s14 (Chans.onPci .acknowledged) { t with pc := t.pc + 1 } := by
  rw [clockTick_flight ht]
  rfl

theorem clockTick_s14 : clockTick (flight .s14 (Chans.onPci .acknowledged) t) =
    flight .s17 (Chans.onPci .requested) t := by
  rw [clockTick_flight_quiet ht rfl]
  rfl

theorem clockTick_s15 : clockTick (flight .s15 (Chans.onPcs .acknowledged) t) =
    flight .s16 (Chans.onPcs .requested) { t with pcsVal := t.pval } := by
  rw [clockTick_flight_quiet ht rfl]
  rfl

theorem clockTick_s16 : clockTick (flight .s16 (Chans.onPcs .requested) t) =
    flight .s0 (Chans.onPcs .acknowledged) { t with pc := t.pcsVal } := by
  rw [clockTick_flight ht]
  rfl

theorem clockTick_s17 {c : Chans} (hc : c.advance = Chans.onPci .acknowledged) :
    clockTick (flight .s17 c t) =
      flight .s0 (Chans.onPci .acknowledged) { t with pc := t.pc + 1 } := by
  have hv : serviced c (settle t) = { settle t with pc := t.pc + 1 } := by
    simp only [Chans.advance, Chans.onPci, Chans.allIdle, Chans.mk.injEq, Channel.advance_eq_idle_iff,
      Channel.advance_eq_acknowledged_iff] at hc
    obtain ⟨hrw, hpcs, hpci, hst⟩ := hc
    simp [serviced, servicedRegs, servicedMem, counterAfter, State.place, hrw, hpcs, hpci, hst]
  rw [clockTick_flight ht, hv, hc]
  rfl

theorem clockTick_s18 : clockTick (flight .s18 (Chans.onPcs .acknowledged) t) =
    raiseHalt (flight .s18 .allIdle t) := by
  rw [clockTick_flight_quiet ht rfl]
  rfl

theorem clockTick_s19 (hsrc : t.rwSrc = .alu) :
    clockTick (flight .s19 (Chans.onRw .requested) t) =
      flight .s17 { Chans.onPci .requested with rw := .acknowledged }
        { t with regs := t.regs.set (bReg t.ir) (settle t).aluOut } := by
  have hv : writeBackValue (settle t) = (settle t).aluOut := by simp [writeBackValue, hsrc]
  rw [clockTick_flight ht, ← hv]
  rfl

theorem clockTick_s20 (hsrc : t.rwSrc = .ext) :
    clockTick (flight .s20 (Chans.onRw .requested) t) =
      flight .s11 (Chans.onRw .acknowledged) { t with regs := t.regs.set (bReg t.ir) t.pval } := by
  have hv : writeBackValue (settle t) = t.pval := by simp [writeBackValue, hsrc]
  rw [clockTick_flight ht, ← hv]
  rfl

/-! ## Phases -/

/-- The states 4 to 7 (R125 to R128): the operand byte is the pending address, and the byte there is latched. -/
theorem ticks_operand : ticks 4 (flight .s4 .allIdle t) =
    flight (dispatchSeq (opField t.ir) (settle t).latchB) (Chans.onPcs .acknowledged)
      { t with
        pc := operandByte t
        paddr := operandByte t
        pcsVal := operandByte t
        pval := t.mem.read (operandByte t) } := by
  simp only [ticks]
  rw [clockTick_s4 ht, clockTick_s5 ht, clockTick_s6 (by exact ht) rfl, clockTick_s7 (by exact ht)]
  rfl

/-- The states 3, 6, 7 (R124, R127, R128): register A is the pending address, and the byte there is latched. -/
theorem ticks_address (ha : needsTwo (opField t.ir) = true) : ticks 3 (flight .s3 .allIdle t) =
    flight (dispatchSeq (opField t.ir) (settle t).latchB) (Chans.onPcs .acknowledged)
      { t with
        pc := registerAddress (aReg t.ir) t
        paddr := registerAddress (aReg t.ir) t
        pcsVal := registerAddress (aReg t.ir) t
        pval := t.mem.read (registerAddress (aReg t.ir) t) } := by
  simp only [ticks]
  rw [clockTick_s3 ht ha, clockTick_s6 (by exact ht) rfl, clockTick_s7 (by exact ht)]
  rfl

/-- The states 8 and 20 (R129, R141). -/
theorem ticks_commitPending : ticks 2 (flight .s8 (Chans.onPcs .acknowledged) t) =
    flight .s11 (Chans.onRw .acknowledged) (commitPending (bReg t.ir) t) := by
  simp only [ticks]
  rw [clockTick_s8 ht, clockTick_s20 (by exact ht) rfl]
  rfl

/-- The states 9 and 10 (R130, R131), with `PC` at the pending address. -/
theorem ticks_storePending (hp : t.pc = t.paddr) (hb : (needsTwo (opField t.ir) || needsOne (opField t.ir)) = true) :
    ticks 2 (flight .s9 (Chans.onPcs .acknowledged) t) =
      flight .s11 (Chans.onSt .acknowledged) (storePending (bReg t.ir) t) := by
  simp only [ticks]
  rw [clockTick_s9 ht, clockTick_s10 ht hb, storePending, ← hp]

/-- The states 11, 12, 17 (R132, R133, R138) of an instruction of one byte. -/
theorem ticks_retireNext_one {c : Chans} (hc : c.advance = .allIdle) (hop : hasSecond (opField t.ir) = false) :
    ticks 3 (flight .s11 c t) = retireNext 1 t := by
  simp only [ticks]
  rw [clockTick_s11 ht hc, clockTick_s12_of_one (by exact ht) (by exact hop),
    clockTick_s17 (by exact ht) rfl]
  rfl

/-- The states 11 to 14 and 17 (R132 to R135, R138) of an instruction of two bytes. -/
theorem ticks_retireNext_two {c : Chans} (hc : c.advance = .allIdle) (hop : hasSecond (opField t.ir) = true) :
    ticks 5 (flight .s11 c t) = retireNext 2 t := by
  have hpc : pcPlus t.bm 2 = t.bm + 1 + 1 := (BitVec.add_assoc t.bm 1 1).symm
  simp only [ticks]
  rw [clockTick_s11 ht hc, clockTick_s12_of_two (by exact ht) (by exact hop), clockTick_s13 (by exact ht),
    clockTick_s14 (by exact ht), clockTick_s17 (by exact ht) rfl, retireNext, hpc]
  rfl

/-- The states 15 and 16 (R136, R137). -/
theorem ticks_retireJump :
    ticks 2 (flight .s15 (Chans.onPcs .acknowledged) t) = retireJump t := by
  simp only [ticks]
  rw [clockTick_s15 ht, clockTick_s16 (by exact ht)]
  rfl

/-- The states 19 and 17 of an ALU instruction (R138, R140). -/
theorem ticks_writeBackAlu (hsrc : t.rwSrc = .alu) :
    ticks 2 (flight .s19 (Chans.onRw .requested) t) =
      flight .s0 (Chans.onPci .acknowledged)
        { t with regs := t.regs.set (bReg t.ir) (settle t).aluOut, pc := pcPlus t.pc 1 } := by
  simp only [ticks]
  rw [clockTick_s19 ht hsrc, clockTick_s17 (by exact ht) rfl]
  rfl

end Rules

/-! ## From the fetch -/

theorem halt_of_atFetch {s : State} (hf : s.atFetch = true) : s.halt = false := ((atFetch_iff s).mp hf).1

/-- The fetch tick (R121) latches the opcode byte. The routed fields are still those of the old opcode latch. -/
theorem clockTick_fetch {s : State} (hf : s.atFetch = true) :
    clockTick s = State.place (if isHigh (s.mem.read s.pc) then .s2 else .s1) .allIdle
      { settle s with ir := s.mem.read s.pc } := by
  obtain ⟨hh, hq, hrw, hpcs, hpci, hst⟩ := (atFetch_iff s).mp hf
  have hc : s.chans.advance = .allIdle := (Chans.advance_eq_allIdle_iff _).mpr ⟨hrw, hpcs, hpci, hst⟩
  have hs : s = s.place .s0 s.chans := by rw [← hq]; rfl
  calc clockTick s = clockTick (s.place .s0 s.chans) := by rw [← hs]
    _ = sequencer (flight .s0 .allIdle s) := clockTick_place_quiet hh hc
    _ = _ := rfl

/-- The states 0 and 1 (R121, R122) of codes 0 to 7. -/
theorem ticks_two_of_low {s : State} (hf : s.atFetch = true) (hlow : isHigh (s.mem.read s.pc) = false) :
    ticks 2 s = flight .s19 (Chans.onRw .requested)
      { latchOpcode (s.mem.read s.pc) s with rwSrc := .alu } := by
  have hh := halt_of_atFetch hf
  simp only [ticks, clockTick_fetch hf, hlow]
  rw [clockTick_place_quiet (by exact hh) rfl]
  rfl

/-- The states 0 and 2 (R121, R123) of codes 8 to 15. -/
theorem ticks_two_of_high {s : State} (hf : s.atFetch = true) (hhigh : isHigh (s.mem.read s.pc) = true) :
    ticks 2 s = flight (if isRegInd (opField (s.mem.read s.pc)) then .s3 else .s4) .allIdle
      { latchOpcode (s.mem.read s.pc) s with bm := s.pc } := by
  have hh := halt_of_atFetch hf
  simp only [ticks, clockTick_fetch hf, hhigh]
  rw [clockTick_place_quiet (by exact hh) rfl]
  rfl

/-- `visit` with the counter still at the pending address: where the first tick of state 7 leaves codes 8 to 15. -/
def arrive (o ea : Byte) (s : State) : State := { visit o ea s with pc := ea, pcsVal := ea }

@[simp] theorem arrive_ir (o ea : Byte) (s : State) : (arrive o ea s).ir = o := rfl

theorem needsTwo_of_isRegInd {op : BitVec 4} (h : isRegInd op = true) : needsTwo op = true := by
  revert op
  decide

/-- The dispatch of `jmpz` tests register B (R128, 44_jmpz_jmp.md R191). -/
theorem dispatchSeq_jmpz {o : Byte} (s : State) (hop : opField o = 10#4) :
    dispatchSeq (opField o) (settle (latchOpcode o s)).latchB =
      if s.regs.get (bReg o) = 0 then .s15 else .s11 := by
  simp [dispatchSeq, hop, needsOne]

/-! ## Instruction by instruction: the ticks of each path (R145, 70_reset_and_hazards.md R254) -/

section Instructions
variable {s : State} {o : Byte} (hf : s.atFetch = true) (ho : s.mem.read s.pc = o)
include hf ho

/-- The path 0, 1, 19, 17 commits what the ALU made of the operands in the tick of state 1. -/
theorem ticks_alu (hlow : isHigh o = false) :
    ticks 4 s = retireAlu o (bReg o) (settle (latchOpcode o s)).aluOut s := by
  have hh := halt_of_atFetch hf
  subst ho
  rw [ticks_add 2 2, ticks_two_of_low hf hlow, ticks_writeBackAlu (by exact hh) rfl]
  rfl

/-- The states 0, 2, 4, 5, 6, 7 of the codes 8 to 11, 14 and 15. -/
theorem ticks_arrive_operand {q : Seq} (hhigh : isHigh o = true) (hop : isRegInd (opField o) = false)
    (hq : dispatchSeq (opField o) (settle (latchOpcode o s)).latchB = q) :
    ticks 6 s = flight q (Chans.onPcs .acknowledged) (arrive o (operandByte s) s) := by
  have hh := halt_of_atFetch hf
  subst ho hq
  rw [ticks_add 2 4, ticks_two_of_high hf hhigh, hop, if_neg Bool.false_ne_true, ticks_operand (by exact hh)]
  rfl

/-- The states 0, 2, 3, 6, 7 of the codes 12 and 13. -/
theorem ticks_arrive_register {q : Seq} (hhigh : isHigh o = true) (hop : isRegInd (opField o) = true)
    (hq : dispatchSeq (opField o) (settle (latchOpcode o s)).latchB = q) :
    ticks 5 s =
      flight q (Chans.onPcs .acknowledged) (arrive o (registerAddress (aReg o) s) s) := by
  have hh := halt_of_atFetch hf
  subst ho hq
  rw [ticks_add 2 3, ticks_two_of_high hf hhigh, hop, if_pos rfl,
    ticks_address (by exact hh) (by exact needsTwo_of_isRegInd hop)]
  rfl

theorem ticks_load (hop : opField o = 8#4) :
    ticks 13 s = retireNext 2 (commitPending (bReg o) (visit o (operandByte s) s)) := by
  have hh := halt_of_atFetch hf
  rw [ticks_add 6 7, ticks_arrive_operand (q := .s8) hf ho (by simp [isHigh_eq, hop]) (by simp [hop, isRegInd])
    (by simp [dispatchSeq, hop]), ticks_add 2 5, ticks_commitPending (by exact hh),
    ticks_retireNext_two (by exact hh) rfl (by simp [hop, hasSecond])]
  rfl

theorem ticks_wrt (hop : opField o = 9#4) :
    ticks 13 s = retireNext 2 (storePending (bReg o) (visit o (operandByte s) s)) := by
  have hh := halt_of_atFetch hf
  rw [ticks_add 6 7, ticks_arrive_operand (q := .s9) hf ho (by simp [isHigh_eq, hop]) (by simp [hop, isRegInd])
    (by simp [dispatchSeq, hop]), ticks_add 2 5, ticks_storePending (by exact hh) rfl (by simp [hop, needsOne]),
    ticks_retireNext_two (by exact hh) rfl (by simp [hop, hasSecond])]
  rfl

theorem ticks_loadl (hop : opField o = 12#4) :
    ticks 10 s = retireNext 1 (commitPending (bReg o) (visit o (registerAddress (aReg o) s) s)) := by
  have hh := halt_of_atFetch hf
  rw [ticks_add 5 5, ticks_arrive_register (q := .s8) hf ho (by simp [isHigh_eq, hop]) (by simp [hop, isRegInd])
    (by simp [dispatchSeq, hop]), ticks_add 2 3, ticks_commitPending (by exact hh),
    ticks_retireNext_one (by exact hh) rfl (by simp [hop, hasSecond])]
  rfl

theorem ticks_wrtl (hop : opField o = 13#4) :
    ticks 10 s = retireNext 1 (storePending (bReg o) (visit o (registerAddress (aReg o) s) s)) := by
  have hh := halt_of_atFetch hf
  rw [ticks_add 5 5, ticks_arrive_register (q := .s9) hf ho (by simp [isHigh_eq, hop]) (by simp [hop, isRegInd])
    (by simp [dispatchSeq, hop]), ticks_add 2 3, ticks_storePending (by exact hh) rfl (by simp [hop, needsTwo]),
    ticks_retireNext_one (by exact hh) rfl (by simp [hop, hasSecond])]
  rfl

theorem ticks_jmpz_taken (hop : opField o = 10#4) (hz : s.regs.get (bReg o) = 0) :
    ticks 8 s = retireJump (visit o (operandByte s) s) := by
  have hh := halt_of_atFetch hf
  rw [ticks_add 6 2, ticks_arrive_operand hf ho (by simp [isHigh_eq, hop]) (by simp [hop, isRegInd])
    ((dispatchSeq_jmpz s hop).trans (if_pos hz)), ticks_retireJump (by exact hh)]
  rfl

theorem ticks_jmpz_notTaken (hop : opField o = 10#4) (hz : s.regs.get (bReg o) ≠ 0) :
    ticks 11 s = retireNext 2 (visit o (operandByte s) s) := by
  have hh := halt_of_atFetch hf
  rw [ticks_add 6 5, ticks_arrive_operand hf ho (by simp [isHigh_eq, hop]) (by simp [hop, isRegInd])
    ((dispatchSeq_jmpz s hop).trans (if_neg hz)),
    ticks_retireNext_two (by exact hh) rfl (by simp [hop, hasSecond])]
  rfl

theorem ticks_jmp (hop : opField o = 11#4) :
    ticks 8 s = retireJump (visit o (operandByte s) s) := by
  have hh := halt_of_atFetch hf
  rw [ticks_add 6 2, ticks_arrive_operand (q := .s15) hf ho (by simp [isHigh_eq, hop]) (by simp [hop, isRegInd])
    (by simp [dispatchSeq, hop]), ticks_retireJump (by exact hh)]
  rfl

theorem ticks_reserved14 (hop : opField o = 14#4) :
    ticks 6 s = settle (park .s7 .acknowledged .idle (visitFollowing o s)) := by
  rw [ticks_arrive_operand (q := .s7) hf ho (by simp [isHigh_eq, hop]) (by simp [hop, isRegInd])
    (by simp [dispatchSeq, hop])]
  rfl

theorem ticks_halt (hop : opField o = 15#4) :
    ticks 7 s = raiseHalt (settle (park .s18 .idle .idle (visitFollowing o s))) := by
  have hh := halt_of_atFetch hf
  rw [ticks_succ, ticks_arrive_operand (q := .s18) hf ho (by simp [isHigh_eq, hop]) (by simp [hop, isRegInd])
    (by simp [dispatchSeq, hop]), clockTick_s18 (by exact hh)]
  rfl

end Instructions

/-! ## The two levels -/

/-- The meaning of an instruction is its ticks, micro state included, from every state between two instructions whose
memory holds it at `PC`. -/
theorem exec_eq_ticks {s : State} {i : Instr} (hf : s.atFetch = true) (ho : s.mem.read s.pc = i.opcode)
    (hk : ∀ k, encode i = [i.opcode, k] → operandByte s = k) : exec i s = .next (ticks (ticksOf i s) s) := by
  cases i with
  | and a b =>
    simp [ticksOf, ticks_alu hf ho, isHigh_eq, exec, execAnd, aluResult, Instr.opcode, needsTwo]
  | or a b =>
    simp [ticksOf, ticks_alu hf ho, isHigh_eq, exec, execOr, aluResult, Instr.opcode, needsTwo]
  | xor a b =>
    simp [ticksOf, ticks_alu hf ho, isHigh_eq, exec, execXor, aluResult, Instr.opcode, needsTwo]
  | add a b =>
    simp [ticksOf, ticks_alu hf ho, isHigh_eq, exec, execAdd, aluResult, Instr.opcode, needsTwo]
  | sub a b =>
    simp [ticksOf, ticks_alu hf ho, isHigh_eq, exec, execSub, aluResult, Instr.opcode, needsTwo]
  | notb u b =>
    simp [ticksOf, ticks_alu hf ho, isHigh_eq, exec, execNotb, aluResult, Instr.opcode, needsOne]
  | shiftb u b =>
    simp [ticksOf, ticks_alu hf ho, isHigh_eq, exec, execShiftb, aluResult, Instr.opcode, needsOne]
  | lshiftb u b =>
    simp [ticksOf, ticks_alu hf ho, isHigh_eq, exec, execLshiftb, aluResult, Instr.opcode, needsOne]
  | load u b k =>
    simp [ticksOf, ticks_load hf ho, hk k rfl, exec, execLoad, absoluteAddress, Instr.opcode]
  | wrt u b k =>
    simp [ticksOf, ticks_wrt hf ho, hk k rfl, exec, execWrt, absoluteAddress, Instr.opcode]
  | jmpz u b k =>
    have hop : opField (Instr.jmpz u b k).opcode = 10#4 := opField_byteR ..
    have hb : bReg (Instr.jmpz u b k).opcode = b := bReg_byteR ..
    by_cases hz : s.regs.get b = 0
    · have ht := ticks_jmpz_taken hf ho hop (by rwa [hb])
      rw [hk k rfl] at ht
      simp only [exec, execJmpz, ticksOf, if_pos hz, ht]
    · have ht := ticks_jmpz_notTaken hf ho hop (by rwa [hb])
      rw [hk k rfl] at ht
      simp only [exec, execJmpz, ticksOf, if_neg hz, ht]
  | jmp u k => simp [ticksOf, ticks_jmp hf ho, hk k rfl, exec, execJmp, Instr.opcode]
  | loadl a b => simp [ticksOf, ticks_loadl hf ho, exec, execLoadl, Instr.opcode]
  | wrtl a b => simp [ticksOf, ticks_wrtl hf ho, exec, execWrtl, Instr.opcode]
  | reserved14 u => simp [ticksOf, ticks_reserved14 hf ho, exec, execReserved14, Instr.opcode]
  | halt u => simp [ticksOf, ticks_halt hf ho, exec, execHalt, Instr.opcode]

theorem fetch_opcode {s : State} {i : Instr} {rest : List Byte} (h : decode (fetchBytes s) = .ok (i, rest)) :
    s.mem.read s.pc = i.opcode := by
  obtain ⟨tail, ht⟩ := encode_eq_cons i
  have he := encode_append_of_decode h
  rw [ht] at he
  exact (List.cons.inj he).1.symm

theorem fetch_operand {s : State} {i : Instr} {rest : List Byte} (h : decode (fetchBytes s) = .ok (i, rest))
    {k : Byte} (hk : encode i = [i.opcode, k]) : operandByte s = k := by
  have he := encode_append_of_decode h
  rw [hk] at he
  exact (List.cons.inj (List.cons.inj he).2).1.symm

theorem step_eq_runDecoded {s : State} (hf : s.atFetch = true) : step s = runDecoded (decode (fetchBytes s)) s := by
  simp [step, halt_of_atFetch hf, hf]

theorem step_eq_exec {s : State} {i : Instr} {rest : List Byte} (hf : s.atFetch = true)
    (h : decode (fetchBytes s) = .ok (i, rest)) : step s = exec i s := by
  rw [step_eq_runDecoded hf, h, runDecoded]

theorem step_eq_tick {s : State} (hh : s.halt = false) (hf : s.atFetch = false) : step s = .next (tick s) := by
  simp [step, hh, hf]

/-- Settles O9: the step runs the meaning of the fetched instruction, and every meaning is composed of the phases its
ticks go through. -/
theorem stepIsTheTicksOfItsInstruction : Obligations.StepIsTheTicksOfItsInstruction := by
  intro s i rest hf hd
  rw [step_eq_exec hf hd]
  exact exec_eq_ticks hf (fetch_opcode hd) fun _ hk => fetch_operand hd hk

/-- Settles O8, from the definition of a step. -/
theorem stepElsewhereIsOneTick : Obligations.StepElsewhereIsOneTick :=
  fun _ hh hf => step_eq_tick hh hf

end Sys2Proof.Machine

/-! # The state: what a tick and an instruction make of it (10_state.md) -/

namespace Sys2Proof.Machine

/-! ## Memory: the canonical form (R16, R40) -/

/-- The canonical form of a list of cells that is not empty, in its clauses. -/
theorem cellsWf_cons_iff (lo x : Nat) (v : Byte) (rest : List Host.Cell) :
    cellsWf lo ((x, v) :: rest) = true ↔
      lo ≤ x ∧ x < 256 ∧ v ≠ unlistedByte ∧ cellsWf (x + 1) rest = true := by
  simp [cellsWf, and_assoc]

theorem cellsRead_cons_same (x : Nat) (v : Byte) (rest : List Host.Cell) : cellsRead ((x, v) :: rest) x = v :=
  if_pos rfl

theorem cellsRead_cons_ne {x n : Nat} (v : Byte) (rest : List Host.Cell) (h : x ≠ n) :
    cellsRead ((x, v) :: rest) n = cellsRead rest n :=
  if_neg h

/-- Below its lower bound a canonical list of cells has no cell. -/
theorem cellsRead_eq_unlistedByte_of_lt {lo n : Nat} {l : List Host.Cell} (h : cellsWf lo l = true) (hn : n < lo) :
    cellsRead l n = unlistedByte := by
  induction l generalizing lo with
  | nil => rfl
  | cons c rest ih =>
    obtain ⟨x, v⟩ := c
    obtain ⟨hlo, -, -, hrest⟩ := (cellsWf_cons_iff lo x v rest).mp h
    rw [cellsRead_cons_ne v rest (by omega)]
    exact ih hrest (by omega)

/-- The first cell of a canonical list is seen by a read, so a list with the same reads has no lower bound past it. -/
theorem le_head_of_reads_alike {lo lo' x : Nat} {v : Byte} {rest l : List Host.Cell}
    (h : cellsWf lo ((x, v) :: rest) = true) (h' : cellsWf lo' l = true)
    (hr : ∀ n < 256, cellsRead ((x, v) :: rest) n = cellsRead l n) : lo' ≤ x := by
  obtain ⟨-, hx, hv, -⟩ := (cellsWf_cons_iff lo x v rest).mp h
  by_contra hlt
  have hread := hr x hx
  rw [cellsRead_cons_same, cellsRead_eq_unlistedByte_of_lt h' (by omega)] at hread
  exact hv hread

/-- Two canonical lists with the same reads have the same first cell, and their tails have the same reads. -/
theorem eq_of_cellsWf_of_reads_alike {lo lo' : Nat} {l l' : List Host.Cell} (h : cellsWf lo l = true)
    (h' : cellsWf lo' l' = true) (hr : ∀ n < 256, cellsRead l n = cellsRead l' n) : l = l' := by
  induction l generalizing lo lo' l' with
  | nil =>
    cases l' with
    | nil => rfl
    | cons c' rest' =>
      obtain ⟨y, w⟩ := c'
      have hle : y + 1 ≤ y := le_head_of_reads_alike (lo' := y + 1) h' rfl fun n hn => (hr n hn).symm
      omega
  | cons c rest ih =>
    obtain ⟨x, v⟩ := c
    cases l' with
    | nil =>
      have hle : x + 1 ≤ x := le_head_of_reads_alike (lo' := x + 1) h rfl hr
      omega
    | cons c' rest' =>
      obtain ⟨y, w⟩ := c'
      obtain ⟨-, hx, hv, hrest⟩ := (cellsWf_cons_iff lo x v rest).mp h
      obtain ⟨-, hy, hw, hrest'⟩ := (cellsWf_cons_iff lo' y w rest').mp h'
      have hyx : y ≤ x := le_head_of_reads_alike h ((cellsWf_cons_iff y y w rest').mpr ⟨le_rfl, hy, hw, hrest'⟩) hr
      have hxy : x ≤ y := le_head_of_reads_alike h' ((cellsWf_cons_iff x x v rest).mpr ⟨le_rfl, hx, hv, hrest⟩)
        fun n hn => (hr n hn).symm
      obtain rfl : x = y := le_antisymm hxy hyx
      obtain rfl : v = w := by simpa only [cellsRead_cons_same] using hr x hx
      refine congrArg ((x, v) :: ·) (ih hrest hrest' fun n hn => ?_)
      by_cases hxn : x = n
      · rw [cellsRead_eq_unlistedByte_of_lt hrest (by omega), cellsRead_eq_unlistedByte_of_lt hrest' (by omega)]
      · simpa only [cellsRead_cons_ne _ _ hxn] using hr n hn

/-- Settles O28, by induction on the cells: the first cells agree, and so do the reads of the rest. -/
theorem canonicalMemoriesThatReadAlikeAreEqual : Obligations.CanonicalMemoriesThatReadAlikeAreEqual := by
  intro m m' h h' hr
  have hcells : m.cells = m'.cells := eq_of_cellsWf_of_reads_alike h h' fun n hn => by
    simpa [Memory.read, Nat.mod_eq_of_lt hn] using hr (BitVec.ofNat 8 n)
  cases m
  cases m'
  exact congrArg Memory.mk hcells

/-! ## The state after reset (R29) -/

/-- At reset the sequencer is in state 0 with all channels `Idle`, whatever the launch. -/
theorem launch_disciplined (l : Launch) : (State.launch l).disciplined = true :=
  calc (State.launch l).disciplined = State.reset.disciplined := rfl
    _ = true := by decide

theorem launch_inv {l : Launch} (h : l.memInit.wf = true) : (State.launch l).inv = true := by
  rw [State.inv, launch_disciplined, Bool.true_and]
  exact h

/-- Settles O15: the discipline holds at every launch, and the empty memory of the plain one is canonical. -/
theorem launchMeetsTheInvariant : Obligations.LaunchMeetsTheInvariant :=
  ⟨launch_inv reset_mem_wf, fun _ => launch_inv⟩

/-- Settles O30, from the definition of the launch. -/
theorem launchSetsEveryField : Obligations.LaunchSetsEveryField :=
  fun _ => ⟨rfl, rfl, rfl, rfl, rfl, rfl, rfl, rfl, rfl, rfl, rfl, rfl, rfl, rfl, rfl, rfl, rfl, rfl, rfl⟩

/-! ## What module 6 leaves alone (41_control_sequencer.md R120) -/

/-- The fields modules 1 to 5 own, apart from the channels, are the same in both states. -/
structure SameDatapath (s t : State) : Prop where
  regs : t.regs = s.regs
  pc : t.pc = s.pc
  mem : t.mem = s.mem
  latchA : t.latchA = s.latchA
  latchB : t.latchB = s.latchB
  aluOut : t.aluOut = s.aluOut
  rdata : t.rdata = s.rdata

/-- Whether it waits or goes on, a waiting state keeps what its rule keeps. -/
theorem await_rel {r : State → State → Prop} {c : Channel} {s t : State} (hs : r s s) (ht : r s t) :
    r s (await c t s) := by
  cases c with
  | idle => exact hs
  | requested => exact hs
  | acknowledged => exact ht

theorem sequencer_sameDatapath (s : State) : SameDatapath s (sequencer s) := by
  cases h : s.seq <;> simp only [sequencer, h]
  case s5 | s7 | s10 | s12 | s13 | s16 | s17 | s19 | s20 =>
    exact await_rel ⟨rfl, rfl, rfl, rfl, rfl, rfl, rfl⟩ ⟨rfl, rfl, rfl, rfl, rfl, rfl, rfl⟩
  all_goals exact ⟨rfl, rfl, rfl, rfl, rfl, rfl, rfl⟩

theorem await_halt (c : Channel) {t s : State} (h : t.halt = s.halt) : (await c t s).halt = s.halt :=
  await_rel (r := fun s t => t.halt = s.halt) rfl h

/-- Module 6 raises `HALT` in state 18 (R139) and never clears it. -/
theorem sequencer_halt (s : State) : (sequencer s).halt = (s.halt || s.seq == .s18) := by
  cases h : s.seq <;> simp [sequencer, h, await_halt]

/-! ## What modules 1 to 5 do (40_tick_modules.md R95 to R99) -/

section Tick
variable (s : State)

theorem datapath_eq_flight : datapath s = flight s.seq s.chans.advance (serviced s.chans s) :=
  datapath_place s.seq s.chans s

theorem datapath_regs : (datapath s).regs = servicedRegs s.chans s := by
  rw [datapath_eq_flight]
  rfl

theorem datapath_pc : (datapath s).pc = counterAfter s := by
  rw [datapath_eq_flight]
  rfl

theorem datapath_halt : (datapath s).halt = s.halt := by
  rw [datapath_eq_flight]
  rfl

theorem datapath_seq : (datapath s).seq = s.seq := by
  rw [datapath_eq_flight]
  rfl

/-- The store of module 5 is of the latch and at the counter that the modules before it left (R99). -/
theorem datapath_mem : (datapath s).mem =
    if s.st = .requested then s.mem.write (datapath s).pc (datapath s).latchB else s.mem := by
  rw [datapath_eq_flight]
  rfl

theorem datapath_rdata : (datapath s).rdata = (datapath s).mem.read (datapath s).pc := by
  rw [datapath_eq_flight]
  rfl

/-! ## One tick -/

theorem tick_sameDatapath : SameDatapath (datapath s) (tick s) := sequencer_sameDatapath (datapath s)

theorem tick_regs : (tick s).regs = servicedRegs s.chans s := (tick_sameDatapath s).regs.trans (datapath_regs s)

theorem tick_pc : (tick s).pc = counterAfter s := (tick_sameDatapath s).pc.trans (datapath_pc s)

theorem tick_halt : (tick s).halt = (s.halt || s.seq == .s18) := by
  rw [tick, sequencer_halt, datapath_halt, datapath_seq]

theorem writeBackValue_eq : writeBackValue s = if s.rwSrc = .alu then s.aluOut else s.pval := by
  cases h : s.rwSrc <;> simp [writeBackValue, h]

theorem counterAfter_eq : counterAfter s =
    (if s.pcs = .requested then s.pcsVal else s.pc) + (if s.pci = .requested then 1 else 0) := by
  by_cases h : s.pci = .requested <;> simp [counterAfter, h]

end Tick

/-- Settles O21: module 6 leaves the registers as module 1 served them. -/
theorem registersAreWrittenByWriteBackAlone : Obligations.RegistersAreWrittenByWriteBackAlone := by
  intro s
  rw [← writeBackValue_eq]
  exact tick_regs s

/-- Settles O23: module 6 leaves the counter as module 4 served it. -/
theorem counterMovesByServicedRequestsAlone : Obligations.CounterMovesByServicedRequestsAlone :=
  fun s => (tick_pc s).trans (counterAfter_eq s)

/-- Settles O25: modules 1 to 5 keep the flag, and module 6 raises it in state 18 alone. -/
theorem haltFlagRisesInState18Alone : Obligations.HaltFlagRisesInState18Alone := tick_halt

/-- Settles O26: the ports show the datapath of the tick, which module 6 leaves as it is. -/
theorem portsCarryTheTick : Obligations.PortsCarryTheTick := by
  intro s
  have hsame := tick_sameDatapath s
  have hwe : (tickPorts s).memWe = true ↔ s.st = .requested := beq_iff_eq
  refine ⟨hsame.pc.symm, ?_, hsame.latchB.symm, rfl, ?_⟩
  · rw [hsame.mem]
    exact datapath_rdata s
  · simp only [hwe]
    exact hsame.mem.trans (datapath_mem s)

/-! ## One instruction on the architectural state (70_reset_and_hazards.md R252) -/

/-- `v` in register `b`, the counter `n` bytes on. -/
def Arch.commit (b : Reg) (v n : Byte) (a : Arch) : Arch := { a with regs := a.regs.set b v, pc := a.pc + n }

/-- `v` in memory at `ea`, the counter `n` bytes on. -/
def Arch.store (ea v n : Byte) (a : Arch) : Arch := { a with mem := a.mem.write ea v, pc := a.pc + n }

/-- What an instruction makes of the architectural state: a function of that state alone (10_state.md R28). -/
def archAfter (i : Instr) (a : Arch) : Arch :=
  let x := a.regs.get
  match i with
  | .and p q => a.commit q (x p &&& x q) 1
  | .or p q => a.commit q (x p ||| x q) 1
  | .xor p q => a.commit q (x p ^^^ x q) 1
  | .add p q => a.commit q (x p + x q) 1
  | .sub p q => a.commit q (subBy Config.subOrder (x p) (x q)) 1
  | .notb _ q => a.commit q (~~~x q) 1
  | .shiftb _ q => a.commit q (shiftRight1 (x q)) 1
  | .lshiftb _ q => a.commit q (shiftLeft1 (x q)) 1
  | .load _ q k => a.commit q (a.mem.read k) 2
  | .wrt _ q k => a.store k (x q) 2
  | .jmpz _ q k => { a with pc := if x q = 0 then a.mem.read k else a.pc + 2 }
  | .jmp _ k => { a with pc := a.mem.read k }
  | .loadl p q => a.commit q (a.mem.read (x p)) 1
  | .wrtl p q => a.store (x p) (x q) 1
  | .reserved14 _ => { a with pc := a.mem.read (a.pc + 1) }
  | .halt _ => { a with pc := a.mem.read (a.pc + 1), halt := true }

section Phases
variable (s : State) (o : Byte)

theorem settle_arch : (settle s).arch = s.arch := rfl

theorem park_arch (q : Seq) (c d : Channel) : (park q c d s).arch = s.arch := rfl

theorem raiseHalt_arch : (raiseHalt s).arch = { s.arch with halt := true } := rfl

theorem retireNext_arch (n : Byte) : (retireNext n s).arch = { s.arch with pc := s.bm + n } := by
  rw [retireNext, settle_arch, park_arch]
  rfl

/-- An ALU instruction commits its result and steps by one byte (42_alu.md R160). -/
theorem retireAlu_arch (b : Reg) (v : Byte) : (retireAlu o b v s).arch = s.arch.commit b v 1 := by
  rw [retireAlu, settle_arch, park_arch]
  rfl

/-- A load commits the byte at the effective address. -/
theorem load_arch (n : Byte) (b : Reg) (ea : Byte) :
    (retireNext n (commitPending b (visit o ea s))).arch = s.arch.commit b (s.mem.read ea) n := by
  rw [retireNext_arch]
  rfl

/-- A store writes register B at the effective address. -/
theorem store_arch (n : Byte) (b : Reg) (ea : Byte) :
    (retireNext n (storePending b (visit o ea s))).arch = s.arch.store ea (s.regs.get b) n := by
  rw [retireNext_arch]
  rfl

/-- A jump moves the counter to the byte its operand byte points at (44_jmpz_jmp.md R190). -/
theorem jump_arch (k : Byte) : (retireJump (visit o k s)).arch = { s.arch with pc := s.mem.read k } := by
  rw [retireJump, settle_arch, park_arch]
  rfl

/-- A jump that is not taken moves the counter past the instruction. -/
theorem fallThrough_arch (n k : Byte) : (retireNext n (visit o k s)).arch = { s.arch with pc := s.pc + n } := by
  rw [retireNext_arch]
  rfl

/-- `halt` and code 14 leave the counter at the address the byte after the opcode byte gives (30_encoding.md R70). -/
theorem visitFollowing_arch (q : Seq) (c : Channel) :
    (settle (park q c .idle (visitFollowing o s))).arch = { s.arch with pc := s.mem.read (s.pc + 1) } := by
  rw [settle_arch, park_arch]
  rfl

end Phases

/-- Every meaning answers a next state, whose architectural part is `archAfter`. -/
theorem exec_arch (i : Instr) (s : State) : ∃ t, exec i s = .next t ∧ t.arch = archAfter i s.arch := by
  cases i with
  | and p q => exact ⟨_, rfl, retireAlu_arch ..⟩
  | or p q => exact ⟨_, rfl, retireAlu_arch ..⟩
  | xor p q => exact ⟨_, rfl, retireAlu_arch ..⟩
  | add p q => exact ⟨_, rfl, retireAlu_arch ..⟩
  | sub p q => exact ⟨_, rfl, retireAlu_arch ..⟩
  | notb u q => exact ⟨_, rfl, retireAlu_arch ..⟩
  | shiftb u q => exact ⟨_, rfl, retireAlu_arch ..⟩
  | lshiftb u q => exact ⟨_, rfl, retireAlu_arch ..⟩
  | load u q k => exact ⟨_, rfl, load_arch ..⟩
  | wrt u q k => exact ⟨_, rfl, store_arch ..⟩
  | jmpz u q k =>
    refine ⟨_, rfl, ?_⟩
    by_cases hz : s.regs.get q = 0
    · rw [if_pos hz, jump_arch]
      exact congrArg (fun p => { s.arch with pc := p }) (if_pos hz).symm
    · rw [if_neg hz, fallThrough_arch]
      exact congrArg (fun p => { s.arch with pc := p }) (if_neg hz).symm
  | jmp u k => exact ⟨_, rfl, jump_arch ..⟩
  | loadl p q => exact ⟨_, rfl, load_arch ..⟩
  | wrtl p q => exact ⟨_, rfl, store_arch ..⟩
  | reserved14 u => exact ⟨_, rfl, visitFollowing_arch ..⟩
  | halt u => exact ⟨_, rfl, by rw [raiseHalt_arch, visitFollowing_arch]; rfl⟩

theorem archAfter_halt_iff (i : Instr) (a : Arch) :
    (archAfter i a).halt = true ↔ a.halt = true ∨ ∃ u, i = .halt u := by
  cases i <;> simp [archAfter, Arch.commit, Arch.store]

/-! ## From the fetch -/

/-- Two bytes always hold an instruction (30_encoding.md R69). -/
theorem exists_decode_fetchBytes (s : State) : ∃ i rest, decode (fetchBytes s) = .ok (i, rest) := by
  cases h : hasSecond (opField (s.mem.read s.pc)) with
  | false => exact ⟨instrOf (s.mem.read s.pc) 0, [operandByte s], by simp [fetchBytes_eq, decode, h]⟩
  | true => exact ⟨instrOf (s.mem.read s.pc) (operandByte s), [], by simp [fetchBytes_eq, decode, h]⟩

/-- The fetch sees memory and counter alone. -/
theorem fetchBytes_eq_of_arch_eq {s t : State} (h : s.arch = t.arch) : fetchBytes s = fetchBytes t :=
  congrArg (fun a : Arch => [a.mem.read a.pc, a.mem.read (a.pc + 1)]) h

theorem step_arch {s : State} {i : Instr} {rest : List Byte} (hf : s.atFetch = true)
    (hd : decode (fetchBytes s) = .ok (i, rest)) : ∃ t, step s = .next t ∧ t.arch = archAfter i s.arch := by
  rw [step_eq_exec hf hd]
  exact exec_arch i s

/-- Settles O32: both states fetch the same instruction, and what it does is a function of the architectural state. -/
theorem microStateIsUnobservableAcrossAStep : Obligations.MicroStateIsUnobservableAcrossAStep := by
  intro s t hs ht hst
  obtain ⟨i, rest, hd⟩ := exists_decode_fetchBytes s
  obtain ⟨s', hs', hsa⟩ := step_arch hs hd
  obtain ⟨t', ht', hta⟩ := step_arch ht (fetchBytes_eq_of_arch_eq hst ▸ hd)
  exact ⟨s', t', hs', ht', by rw [hsa, hta, hst]⟩

/-- Settles O55: the flag is 0 at the fetch, and of the sixteen effects that of `halt` alone raises it. -/
theorem haltAloneRaisesTheFlag : Obligations.HaltAloneRaisesTheFlag := by
  intro s t i rest hf hd hstep
  obtain ⟨t', ht', harch⟩ := step_arch hf hd
  obtain rfl : t' = t := by simpa [ht'] using hstep
  have hhalt : t'.halt = (archAfter i s.arch).halt := congrArg Arch.halt harch
  have hs : s.arch.halt = false := halt_of_atFetch hf
  rw [hhalt, archAfter_halt_iff, hs]
  simp

end Sys2Proof.Machine

/-! # Memory: the loader, the fetch and the store (20_memory.md) -/

namespace Sys2Proof.Machine

/-! ## The loader (R42, R55) -/

/-- Counted from its successor, `a` is the last of the 256 addresses of the ring (R43): the tail of an image that fits
memory does not come back to it. -/
theorem sub_succ_self_toNat (a : Byte) : (a - (a + 1)).toNat = 255 := by
  bv_omega

theorem sub_toNat_of_ne {a b : Byte} (h : b ≠ a) : (b - a).toNat = (b - (a + 1)).toNat + 1 := by
  bv_omega

/-- An image that does not lap itself is read back from wherever it was loaded, across the wrap of addresses (R43) too,
and the bytes it does not reach are as before. -/
theorem Memory.read_loadImage (m : Memory) (a b : Byte) {image : List Byte} (h : image.length ≤ 256) :
    (m.loadImage a image).read b = (image[(b - a).toNat]?).getD (m.read b) := by
  induction image generalizing m a with
  | nil => simp [Memory.loadImage]
  | cons v rest ih =>
    have hlen : rest.length ≤ 255 := Nat.le_of_succ_le_succ h
    rw [Memory.loadImage, ih (m.write a v) (a + 1) (by omega)]
    by_cases hb : b = a
    · subst hb
      rw [sub_succ_self_toNat, List.getElem?_eq_none hlen, Memory.read_write_same]
      simp
    · rw [sub_toNat_of_ne hb, Memory.read_write_ne m v hb, List.getElem?_cons_succ]

/-- Settles O29: the case of an image loaded at 0, where an address is its own offset into the image. -/
theorem loadedImageIsReadBack : Obligations.LoadedImageIsReadBack := by
  intro m image a h
  simpa using Memory.read_loadImage m 0 a h

/-! ## The fetch (R52) -/

/-- Settles O5: the two bytes at the counter are what the step decodes. -/
theorem stepRunsTheDecodedInstruction : Obligations.StepRunsTheDecodedInstruction :=
  fun _ _ _ hf hd => step_eq_exec hf hd

/-- Two placed bytes are the bytes of the next fetch. -/
theorem fetchBytes_placeAtFetch (s : State) (o k : Byte) : fetchBytes (placeAtFetch s [o, k]) = [o, k] := by
  have hread (b : Byte) := Memory.read_loadImage s.mem s.pc b (image := [o, k]) (by simp)
  simp [fetchBytes, placeAtFetch, hread]

theorem decodeTableWord_eq_some_iff (nbits w : Nat) (i : Instr) :
    decodeTableWord nbits w = some i ↔ ∃ rest, decode (tableBytes nbits w) = .ok (i, rest) := by
  unfold decodeTableWord
  cases decode (tableBytes nbits w) with
  | error e => simp
  | ok p => simp [Prod.ext_iff]

/-- Settles O6: the placed word is fetched as it was placed, so the step decodes the same bytes as the table. -/
theorem stepRunsThePlacedWord : Obligations.StepRunsThePlacedWord := by
  intro s nbits w i h
  obtain ⟨rest, hd⟩ := (decodeTableWord_eq_some_iff nbits w i).mp h
  have hfetch : fetchBytes (s.withFetchWord nbits w) = tableBytes nbits w := fetchBytes_placeAtFetch ..
  exact step_eq_exec (placeAtFetch_atFetch ..) (hfetch ▸ hd)

/-- Every path latches the opcode byte at its fetch and keeps it (41_control_sequencer.md R121, R145). -/
theorem exec_ir {i : Instr} {s t : State} (h : exec i s = .next t) : t.ir = i.opcode := by
  cases i with
  | jmpz u b k =>
    obtain rfl := Host.Outcome.next.inj h
    by_cases hz : s.regs.get b = 0
    · exact congrArg State.ir (if_pos hz)
    · exact congrArg State.ir (if_neg hz)
  | _ =>
    obtain rfl := Host.Outcome.next.inj h
    rfl

/-- A step from a fetch leaves in `IR` the byte memory held at the counter (R52). -/
theorem step_ir {s t : State} (hf : s.atFetch = true) (h : step s = .next t) : t.ir = s.mem.read s.pc := by
  obtain ⟨i, rest, hd⟩ := exists_decode_fetchBytes s
  rw [step_eq_exec hf hd] at h
  rw [fetch_opcode hd, exec_ir h]

/-! ## The store (R50, R52) -/

/-- Settles O24: module 6 leaves memory, latch `B`, counter and read data as module 5 left them. -/
theorem memoryIsWrittenByTheServicedStoreAlone : Obligations.MemoryIsWrittenByTheServicedStoreAlone := by
  intro s
  have hsame := tick_sameDatapath s
  rw [hsame.mem, hsame.rdata, hsame.pc, hsame.latchB]
  exact ⟨datapath_mem s, datapath_rdata s⟩

/-- An instruction that retires to the next one stands at its fetch. -/
theorem retireNext_atFetch (n : Byte) {s : State} (h : s.halt = false) : (retireNext n s).atFetch = true := by
  rw [atFetch_iff]
  simp [retireNext, h]

/-- The instruction `i` is a store of register `b`, and `x` is its effective address in `s` (43_load_wrt.md R180,
45_loadl_wrtl.md R200). -/
def StoresAt (i : Instr) (s : State) (b : Reg) (x : Byte) : Prop :=
  (∃ w k, i = .wrt w b k ∧ x = k) ∨ (∃ a, i = .wrtl a b ∧ x = s.regs.get a)

/-- The two stores differ in their opcode byte and their length alone. -/
theorem exec_store {i : Instr} {s : State} {b : Reg} {x : Byte} (hi : StoresAt i s b x) :
    ∃ n, exec i s = .next (retireNext n (storePending b (visit i.opcode x s))) := by
  obtain ⟨w, k, rfl, rfl⟩ | ⟨a, rfl, rfl⟩ := hi
  · exact ⟨2, rfl⟩
  · exact ⟨1, rfl⟩

/-- After a store the machine stands at a fetch, and its memory is the old one with the store made. -/
theorem step_store {i : Instr} {rest : List Byte} {s t : State} {b : Reg} {x : Byte} (hf : s.atFetch = true)
    (hd : decode (fetchBytes s) = .ok (i, rest)) (hi : StoresAt i s b x) (h : step s = .next t) :
    t.atFetch = true ∧ t.mem = s.mem.write x (s.regs.get b) := by
  obtain ⟨n, hexec⟩ := exec_store hi
  rw [step_eq_exec hf hd, hexec] at h
  obtain rfl := Host.Outcome.next.inj h
  exact ⟨retireNext_atFetch n (halt_of_atFetch hf), congrArg Arch.mem (store_arch s i.opcode n b x)⟩

/-- Settles O49: the store leaves the machine at a fetch, and that fetch latches what the written memory holds. -/
theorem storeIsSeenByTheNextFetch : Obligations.StoreIsSeenByTheNextFetch := by
  intro s t u i rest b x hf hd hi ht hu
  obtain ⟨hft, hmem⟩ := step_store hf hd hi ht
  rw [step_ir hft hu, hmem, Memory.read_write]
  simp only [eq_comm]

end Sys2Proof.Machine

/-! # The encoding (30_encoding.md) -/

namespace Sys2Proof

/-! ## The decoder, by the length of the instruction (R60) -/

theorem decode_of_one {o : Byte} (h : hasSecond (opField o) = false) (tail : List Byte) :
    decode (o :: tail) = .ok (instrOf o 0, tail) := by
  simp [decode, h]

theorem decode_of_two {o : Byte} (h : hasSecond (opField o) = true) (k : Byte) (tail : List Byte) :
    decode (o :: k :: tail) = .ok (instrOf o k, tail) := by
  simp [decode, h]

/-- Two bytes hold an instruction, whatever they are (R69). -/
theorem exists_decode (o k : Byte) (tail : List Byte) :
    ∃ i rest, decode (o :: k :: tail) = .ok (i, rest) := by
  cases h : hasSecond (opField o) with
  | false => exact ⟨_, _, decode_of_one h (k :: tail)⟩
  | true => exact ⟨_, _, decode_of_two h k tail⟩

theorem opcode_of_decode {o : Byte} {tail rest : List Byte} {i : Instr} (h : decode (o :: tail) = .ok (i, rest)) :
    i.opcode = o := by
  obtain ⟨operand, he⟩ := encode_eq_cons i
  have hbytes : i.opcode :: (operand ++ rest) = o :: tail := by simpa [he] using encode_append_of_decode h
  exact (List.cons.inj hbytes).1

/-! ## Decoding what was encoded -/

/-- An instruction is its opcode byte alone, or, for the memops, its opcode byte and an operand byte, and the fields of
these bytes give the instruction back (R61, R62, R64). -/
theorem encode_one_or_two (i : Instr) :
    (hasSecond (opField i.opcode) = false ∧ encode i = [i.opcode] ∧ instrOf i.opcode 0 = i) ∨
    (∃ k, hasSecond (opField i.opcode) = true ∧ encode i = [i.opcode, k] ∧ instrOf i.opcode k = i) := by
  cases i with
  | load u b k | wrt u b k | jmpz u b k | jmp u k =>
    exact .inr ⟨k, by simp [Instr.opcode, hasSecond], rfl, by simp [Instr.opcode, instrOf]⟩
  | _ => exact .inl ⟨by simp [Instr.opcode, hasSecond], rfl, by simp [Instr.opcode, instrOf]⟩

theorem decode_encode_append (i : Instr) (rest : List Byte) : decode (encode i ++ rest) = .ok (i, rest) := by
  obtain ⟨hone, he, hi⟩ | ⟨k, htwo, he, hi⟩ := encode_one_or_two i
  · calc decode (encode i ++ rest) = decode (i.opcode :: rest) := by rw [he]; rfl
      _ = .ok (i, rest) := by rw [decode_of_one hone, hi]
  · calc decode (encode i ++ rest) = decode (i.opcode :: k :: rest) := by rw [he]; rfl
      _ = .ok (i, rest) := by rw [decode_of_two htwo, hi]

/-- Settles O1: of one byte or of two, the fields of the encoding give the instruction back. -/
theorem decodeInvertsEncode : Obligations.DecodeInvertsEncode := decode_encode_append

/-- Settles O2: the bytes of an instruction are what `instrOf` read them from. -/
theorem encodeInvertsDecode : Obligations.EncodeInvertsDecode :=
  fun _ _ _ h => encode_append_of_decode h

/-! ## Codes and their ranges of opcode bytes (R61, R68) -/

theorem opField_toNat (o : Byte) : (opField o).toNat = o.toNat / 16 := by
  have ho := o.isLt
  simp only [opField, BitVec.extractLsb'_toNat, Nat.shiftRight_eq_div_pow]
  omega

theorem opField_eq_iff (o : Byte) (c : BitVec 4) :
    opField o = c ↔ 16 * c.toNat ≤ o.toNat ∧ o.toNat ≤ 16 * c.toNat + 15 := by
  rw [← BitVec.toNat_inj, opField_toNat]
  omega

/-- Code 14 is an instruction of its own (R68). -/
theorem exists_eq_reserved14_iff (i : Instr) : (∃ u, i = .reserved14 u) ↔ opField i.opcode = 14#4 := by
  cases i <;> simp [Instr.opcode]

/-- Settles O3: two bytes always decode, the instruction read keeps the opcode byte, and code 14 is the bytes whose high
nibble is 14. -/
theorem everyByteIsAnOpcodeByte : Obligations.EveryByteIsAnOpcodeByte := by
  intro o k tail
  obtain ⟨i, rest, hd⟩ := exists_decode o k tail
  have ho : i.opcode = o := opcode_of_decode hd
  refine ⟨i, rest, hd, ho, ?_⟩
  rw [exists_eq_reserved14_iff, ho]
  exact opField_eq_iff o 14#4

end Sys2Proof

namespace Sys2Proof.Machine

/-! ## Words of the table -/

/-- A word of the table that begins with the encoding of an instruction is read as that instruction. -/
theorem decodeTableWord_of_encode_prefix {nbits w : Nat} {i : Instr} (h : encode i <+: tableBytes nbits w) :
    decodeTableWord nbits w = some i := by
  obtain ⟨rest, hbytes⟩ := h
  exact (decodeTableWord_eq_some_iff nbits w i).mpr ⟨rest, hbytes ▸ decode_encode_append i rest⟩

/-- Settles O4: each word begins with the encoding of its instruction. -/
theorem writtenWordsDecode : Obligations.WrittenWordsDecode := by
  refine ⟨?_, ?_, ?_, ?_, ?_, ?_, ?_⟩
  all_goals exact decodeTableWord_of_encode_prefix (by decide)

/-! ## The unused bits (R65) -/

theorem outcomeArch_exec (i : Instr) (s : State) : outcomeArch (exec i s) = some (archAfter i s.arch) := by
  obtain ⟨t, ht, harch⟩ := exec_arch i s
  rw [ht, ← harch]
  rfl

/-- Settles O56: what an instruction makes of the architectural state does not read its unused bits. -/
theorem unusedBitsChangeNothingArchitectural : Obligations.UnusedBitsChangeNothingArchitectural := by
  intro b k s
  simp only [outcomeArch_exec]
  exact ⟨fun _ _ => ⟨rfl, rfl, rfl, rfl, rfl, rfl⟩, fun _ _ => ⟨rfl, rfl, rfl⟩⟩

/-! ## Every state steps (R69, 60_exceptions.md R220) -/

theorem step_of_halt {s : State} (h : s.halt = true) : step s = .fault .halted := if_pos h

/-- At a fetch the two bytes there decode, and every meaning answers; elsewhere a step is a tick. -/
theorem exists_step_of_not_halt {s : State} (h : s.halt = false) : ∃ t, step s = .next t := by
  cases hf : s.atFetch with
  | false => exact ⟨tick s, step_eq_tick h hf⟩
  | true =>
    obtain ⟨i, rest, hd⟩ := exists_decode_fetchBytes s
    obtain ⟨t, ht, -⟩ := step_arch hf hd
    exact ⟨t, ht⟩

/-- Settles O11, by whether the machine is halted. -/
theorem everyStateButTheHaltedSteps : Obligations.EveryStateButTheHaltedSteps := by
  intro s
  split
  next h => exact step_of_halt h
  next h => exact exists_step_of_not_halt (Bool.eq_false_of_not_eq_true h)

end Sys2Proof.Machine

/-! # The tick and its handshake (40_tick_modules.md)

Under the discipline the channels that module 6 finds, those it leaves and the state it goes to are three finite tables:
`foundAt`, `leftBy` and `successor`. That the discipline is kept is then a check of the tables of R145. -/

namespace Sys2Proof.Machine

/-! ## The halted machine (R101) -/

theorem clockTick_of_halt {s : State} (h : s.halt = true) : clockTick s = s := if_pos h

theorem clockTick_of_running {s : State} (h : s.halt = false) : clockTick s = tick s :=
  if_neg (Bool.eq_false_iff.mp h)

theorem ticks_of_halt {s : State} (h : s.halt = true) (n : Nat) : ticks n s = s := by
  induction n with
  | zero => rfl
  | succ n ih => rw [ticks, clockTick_of_halt h, ih]

/-- Settles O7: a step faults on a halted machine, and an edge of the clock leaves it as it is. -/
theorem haltedMachineStandsStill : Obligations.HaltedMachineStandsStill :=
  fun _ h => ⟨step_of_halt h, ticks_of_halt h⟩

/-! ## Operand routing and the arithmetic unit (R96, R97) -/

section Routing
variable (s : State)

/-- Module 2 reads the registers as module 1 left them, and nothing after it in the tick writes latch `A`. -/
theorem tick_latchA : (tick s).latchA =
    if needsTwo (opField s.ir) then (tick s).regs.get (aReg s.ir) else s.latchA := by
  rw [(tick_sameDatapath s).latchA, tick_regs, datapath_eq_flight]
  rfl

theorem tick_latchB : (tick s).latchB =
    if needsTwo (opField s.ir) || needsOne (opField s.ir) then (tick s).regs.get (bReg s.ir) else s.latchB := by
  rw [(tick_sameDatapath s).latchB, tick_regs, datapath_eq_flight]
  rfl

theorem tick_aluOut :
    (tick s).aluOut = aluResult Config.subOrder (opField s.ir) (tick s).latchA (tick s).latchB := by
  have hsame := tick_sameDatapath s
  rw [hsame.aluOut, hsame.latchA, hsame.latchB, datapath_eq_flight]
  rfl

end Routing

theorem needsTwo_iff (op : BitVec 4) : needsTwo op = true ↔ op.toNat ≤ 4 ∨ op.toNat = 12 ∨ op.toNat = 13 := by
  revert op
  decide

theorem needsTwo_or_needsOne_iff (op : BitVec 4) :
    (needsTwo op || needsOne op) = true ↔ op.toNat ≤ 10 ∨ op.toNat = 12 ∨ op.toNat = 13 := by
  revert op
  decide

/-- Settles O22: module 6 leaves the latches as modules 2 and 3 made them, and the classes of codes are those of R66. -/
theorem latchesFollowTheOpcodeLatch : Obligations.LatchesFollowTheOpcodeLatch := by
  intro s
  refine ⟨?_, ?_, tick_aluOut s⟩
  · simpa only [needsTwo_iff] using tick_latchA s
  · simpa only [needsTwo_or_needsOne_iff] using tick_latchB s

/-! ## The laws of the arithmetic unit (42_alu.md R169) -/

section Arithmetic
variable (order : SubOrder) (x y : Byte)

theorem aluResult_and : aluResult order 0 x y = x &&& y := rfl
theorem aluResult_or : aluResult order 1 x y = x ||| y := rfl
theorem aluResult_xor : aluResult order 2 x y = x ^^^ y := rfl
theorem aluResult_add : aluResult order 3 x y = x + y := rfl
theorem aluResult_sub : aluResult order 4 x y = subBy order x y := rfl
theorem aluResult_not : aluResult order 5 x y = ~~~y := rfl
theorem aluResult_shiftRight : aluResult order 6 x y = shiftRight1 y := rfl
theorem aluResult_shiftLeft : aluResult order 7 x y = shiftLeft1 y := rfl

theorem add_eq_ofNat : x + y = BitVec.ofNat 8 (x.toNat + y.toNat) := by
  bv_omega

theorem add_255_eq_sub_one : x + 255 = x - 1 := by
  bv_omega

theorem sub_eq_ofInt : x - y = BitVec.ofInt 8 ((x.toNat : Int) - (y.toNat : Int)) := by
  bv_omega

theorem zero_sub_eq_ofNat : 0 - y = BitVec.ofNat 8 (256 - y.toNat) := by
  bv_omega

theorem subBy_self : subBy order x x = 0 := by
  cases order <;> exact BitVec.sub_self x

theorem not_eq_255_sub : ~~~y = 255 - y := by
  bv_omega

theorem shiftRight1_toNat : (shiftRight1 y).toNat = y.toNat / 2 := BitVec.toNat_ushiftRight y 1

theorem shiftLeft1_toNat : (shiftLeft1 y).toNat = 2 * y.toNat % 256 := by
  rw [shiftLeft1, BitVec.toNat_shiftLeft, Nat.shiftLeft_eq, Nat.mul_comm]

theorem shiftLeft1_eq_add_self : shiftLeft1 y = y + y := by
  apply BitVec.eq_of_toNat_eq
  rw [shiftLeft1_toNat, BitVec.toNat_add, Nat.two_mul]

end Arithmetic

/-- Settles O43: the operation of each code, and its laws modulo 256. -/
theorem arithmeticLaws : Obligations.ArithmeticLaws := by
  intro order x y
  simp only [aluResult_and, aluResult_or, aluResult_xor, aluResult_add, aluResult_sub, aluResult_not,
    aluResult_shiftRight, aluResult_shiftLeft]
  exact ⟨BitVec.and_comm x y, BitVec.and_self, BitVec.or_comm x y, BitVec.or_self, BitVec.xor_comm x y,
    BitVec.xor_self, add_eq_ofNat x y, BitVec.add_comm x y, BitVec.add_zero x, add_255_eq_sub_one x, sub_eq_ofInt x y,
    sub_eq_ofInt y x, subBy_self order x, BitVec.sub_zero x, BitVec.sub_zero y, zero_sub_eq_ofNat y,
    zero_sub_eq_ofNat x, not_eq_255_sub y, BitVec.not_not, (BitVec.neg_eq_not_add y).symm, shiftRight1_toNat y,
    shiftLeft1_toNat y, shiftLeft1_eq_add_self y⟩

/-! ## The display hook (R98, R228) -/

theorem diagFires_iff (enable : Bool) (addr pc : Byte) :
    diagFires enable addr pc = true ↔ enable = true ∧ pc = addr := by
  simp [diagFires]

/-- Settles O27: the hook watches the counter module 4 leaves, which module 6 does not write. -/
theorem displayHookWatchesTheCounter : Obligations.DisplayHookWatchesTheCounter := by
  intro s
  rw [(tick_sameDatapath s).pc]
  exact diagFires_iff ..

/-! ## The handshake, state by state (R102, R103, 41_control_sequencer.md R146) -/

/-- The channels module 6 finds in a state of the sequencer under the discipline: the acknowledgement the state waits
for, and nothing else. -/
def foundAt : Seq → Chans
  | .s5 | .s13 | .s17 => .onPci .acknowledged
  | .s7 | .s12 | .s16 => .onPcs .acknowledged
  | .s10 => .onSt .acknowledged
  | .s19 | .s20 => .onRw .acknowledged
  | _ => .allIdle

/-- The channels module 6 leaves when it finds `foundAt`: those it found, with the request of its state. -/
def leftBy (q : Seq) : Chans :=
  match q with
  | .s1 | .s8 => { foundAt q with rw := .requested }
  | .s6 | .s11 | .s15 => { foundAt q with pcs := .requested }
  | .s4 | .s12 | .s14 | .s19 => { foundAt q with pci := .requested }
  | .s9 => { foundAt q with st := .requested }
  | _ => foundAt q

/-- The state module 6 goes to when it finds `foundAt`, with `op` the code in the opcode latch after the tick and `b`
latch `B`. -/
def successor (q : Seq) (op : BitVec 4) (b : Byte) : Seq :=
  match q with
  | .s0 => if op.toNat < 8 then .s1 else .s2
  | .s1 => .s19
  | .s2 => if isRegInd op then .s3 else .s4
  | .s3 => .s6
  | .s4 => .s5
  | .s5 => .s6
  | .s6 => .s7
  | .s7 => dispatchSeq op b
  | .s8 => .s20
  | .s9 => .s10
  | .s10 => .s11
  | .s11 => .s12
  | .s12 => if hasSecond op then .s13 else .s17
  | .s13 => .s14
  | .s14 => .s17
  | .s15 => .s16
  | .s16 => .s0
  | .s17 => .s0
  | .s18 => .s18
  | .s19 => .s17
  | .s20 => .s11

/-! ### The tables agree -/

/-- The services turn the channels of R145 into the acknowledgement awaited; but for code 14, which waits in state 7 for
one that is already cleared (D9). -/
theorem advance_eq_foundAt {q : Seq} {op : BitVec 4} {c : Chans} (hc : c ∈ chansAt q op) :
    c.advance = foundAt q ∨ q = .s7 ∧ op = 14#4 ∧ c.advance = .allIdle := by
  revert c
  cases q <;> revert op <;> decide

/-- `f` reads one of the four channels. -/
def IsChannel (f : Chans → Channel) : Prop := f = Chans.rw ∨ f = Chans.pcs ∨ f = Chans.pci ∨ f = Chans.st

theorem IsChannel.advance {f : Chans → Channel} (hf : IsChannel f) (c : Chans) : f c.advance = (f c).advance := by
  obtain rfl | rfl | rfl | rfl := hf <;> rfl

theorem IsChannel.allIdle {f : Chans → Channel} (hf : IsChannel f) : f .allIdle = .idle := by
  obtain rfl | rfl | rfl | rfl := hf <;> rfl

/-- Requests are made on channels found `Idle` (R146). -/
theorem IsChannel.foundAt_of_leftBy {f : Chans → Channel} (hf : IsChannel f) {q : Seq}
    (h : f (leftBy q) = .requested) : f (foundAt q) = .idle := by
  obtain rfl | rfl | rfl | rfl := hf
  all_goals
    cases q <;> revert h <;> decide

/-- The dispatch asks of latch `B` only whether it is 0 (R128). -/
theorem dispatchSeq_eq (op : BitVec 4) (b : Byte) : dispatchSeq op b = dispatchSeq op (if b = 0 then 0 else 1) := by
  unfold dispatchSeq
  split <;> simp

theorem dispatchSeq_fits {op : BitVec 4} (b : Byte) (hcode : op.toNat ∈ codesAt .s7) :
    op.toNat ∈ codesAt (dispatchSeq op b) ∧ leftBy .s7 ∈ chansAt (dispatchSeq op b) op := by
  rw [dispatchSeq_eq]
  split
  all_goals
    revert op
    decide

/-- Each code walks its own row of R145: the state it goes to is one it reaches, with the channels of that row. -/
theorem successor_fits {q : Seq} {op : BitVec 4} (b : Byte) (hq : q ≠ .s18) (hcode : op.toNat ∈ codesAt q) :
    op.toNat ∈ codesAt (successor q op b) ∧ leftBy q ∈ chansAt (successor q op b) op := by
  cases q with
  | s7 => exact dispatchSeq_fits b hcode
  | s18 => exact absurd rfl hq
  | _ =>
    simp only [successor]
    revert op
    decide

/-! ### Module 6 walks the tables -/

section Sequencer
variable {d : State}

theorem sequencer_ir (hq : d.seq ≠ .s0) : (sequencer d).ir = d.ir := by
  cases h : d.seq <;> simp only [sequencer, h]
  case s0 => exact absurd h hq
  case s5 | s7 | s10 | s12 | s13 | s16 | s17 | s19 | s20 => exact await_rel (r := fun s t => t.ir = s.ir) rfl rfl
  all_goals rfl

theorem eq_place (d : State) : d = d.place d.seq d.chans := rfl

theorem sequencer_chans (hf : d.chans = foundAt d.seq) : (sequencer d).chans = leftBy d.seq := by
  rw [eq_place d, hf]
  cases d.seq <;> rfl

theorem ite_isHigh (o : Byte) :
    (if isHigh o then Seq.s2 else .s1) = if (opField o).toNat < 8 then .s1 else .s2 := by
  cases h : isHigh o <;> simp [← isHigh_eq_false_iff, h]

theorem sequencer_seq (hf : d.chans = foundAt d.seq) :
    (sequencer d).seq = successor d.seq (opField (sequencer d).ir) d.latchB := by
  rw [eq_place d, hf]
  cases d.seq with
  | s0 => exact ite_isHigh d.rdata
  | _ => rfl

theorem sourceAt_dispatchSeq (op : BitVec 4) (b : Byte) (src : RwSrc) : sourceAt (dispatchSeq op b) src = true := by
  rw [dispatchSeq_eq]
  split
  all_goals
    revert op
    cases src <;> decide

theorem await_source {c : Channel} {t s : State} (hs : sourceAt s.seq s.rwSrc = true)
    (ht : sourceAt t.seq t.rwSrc = true) : sourceAt (await c t s).seq (await c t s).rwSrc = true :=
  await_rel (r := fun _ u => sourceAt u.seq u.rwSrc = true) hs ht

/-- A write-back is waited for under the source it was requested with. -/
theorem sequencer_source (hsrc : sourceAt d.seq d.rwSrc = true) :
    sourceAt (sequencer d).seq (sequencer d).rwSrc = true := by
  cases h : d.seq <;> simp only [sequencer, h]
  case s0 | s2 => split <;> rfl
  case s7 => exact await_source hsrc (sourceAt_dispatchSeq ..)
  case s12 => exact await_source hsrc (by dsimp only; split <;> rfl)
  case s18 => exact hsrc
  case s5 | s10 | s13 | s16 | s17 | s19 | s20 => exact await_source hsrc rfl
  all_goals rfl

end Sequencer

/-! ### The discipline in its clauses -/

theorem disciplined_iff_of_running {s : State} (h : s.halt = false) : s.disciplined = true ↔
    (opField s.ir).toNat ∈ codesAt s.seq ∧ sourceAt s.seq s.rwSrc = true ∧
      s.chans ∈ chansAt s.seq (opField s.ir) := by
  simp [State.disciplined, h, and_assoc]

theorem disciplined_iff_of_halt {s : State} (h : s.halt = true) : s.disciplined = true ↔
    (opField s.ir).toNat ∈ codesAt s.seq ∧ sourceAt s.seq s.rwSrc = true ∧ s.seq = .s18 ∧ s.chans = .allIdle := by
  simp [State.disciplined, h, and_assoc]

theorem mem_codesAt_s0 (op : BitVec 4) : op.toNat ∈ codesAt .s0 := by
  revert op
  decide

/-- In state 0 the code is that of the opcode byte just latched, which may be any. -/
theorem sequencer_mem_codesAt {d : State} (hcode : (opField d.ir).toNat ∈ codesAt d.seq) :
    (opField (sequencer d).ir).toNat ∈ codesAt d.seq := by
  by_cases hq : d.seq = .s0
  · rw [hq]
    exact mem_codesAt_s0 _
  · rwa [sequencer_ir hq]

/-- Module 6, finding what the discipline promises, makes its request and goes on along the path, or halts. -/
theorem sequencer_disciplined {d : State} (hh : d.halt = false) (hcode : (opField d.ir).toNat ∈ codesAt d.seq)
    (hsrc : sourceAt d.seq d.rwSrc = true) (hf : d.chans = foundAt d.seq) : (sequencer d).disciplined = true := by
  have hcode' := sequencer_mem_codesAt hcode
  have hsrc' := sequencer_source hsrc
  have hseq := sequencer_seq hf
  have hchans := sequencer_chans hf
  have hhalt := sequencer_halt d
  by_cases hq : d.seq = .s18
  · rw [hq] at hcode' hchans
    have hseq' : (sequencer d).seq = .s18 := by rw [hseq, hq]; rfl
    have hhalt' : (sequencer d).halt = true := by simp [hhalt, hq]
    exact (disciplined_iff_of_halt hhalt').mpr ⟨hseq' ▸ hcode', hsrc', hseq', hchans⟩
  · have hhalt' : (sequencer d).halt = false := by simp [hhalt, hh, hq]
    obtain ⟨hcodes, hfits⟩ := successor_fits d.latchB hq hcode'
    rw [← hseq] at hcodes hfits
    exact (disciplined_iff_of_running hhalt').mpr ⟨hcodes, hsrc', hchans ▸ hfits⟩

/-- State 7 without its acknowledgement holds (R142). -/
theorem sequencer_s7_of_allIdle {d : State} (hq : d.seq = .s7) (hc : d.chans = .allIdle) : sequencer d = d := by
  have hpcs : d.pcs = .idle := congrArg Chans.pcs hc
  simp [sequencer, hq, hpcs]

/-! ### The tick -/

section Tick
variable (s : State)

theorem datapath_ir : (datapath s).ir = s.ir := by
  rw [datapath_eq_flight]
  rfl

theorem datapath_rwSrc : (datapath s).rwSrc = s.rwSrc := by
  rw [datapath_eq_flight]
  rfl

theorem datapath_chans : (datapath s).chans = s.chans.advance := by
  rw [datapath_eq_flight]
  rfl

end Tick

section Running
variable {s : State} (hh : s.halt = false) (hd : s.disciplined = true)
include hh hd

/-- A running machine finds the channels of `foundAt`, but for code 14 in the second tick of state 7 and after. -/
theorem datapath_chans_cases : (datapath s).chans = foundAt s.seq ∨
    s.seq = .s7 ∧ opField s.ir = 14#4 ∧ (datapath s).chans = .allIdle := by
  obtain ⟨-, -, hc⟩ := (disciplined_iff_of_running hh).mp hd
  rw [datapath_chans]
  exact advance_eq_foundAt hc

theorem datapath_chans_eq_foundAt (h14 : s.seq = .s7 → opField s.ir ≠ 14#4) : (datapath s).chans = foundAt s.seq :=
  (datapath_chans_cases hh hd).resolve_right fun ⟨hq, hop, _⟩ => h14 hq hop

/-- In state 7 under code 14 the machine waits on, for an acknowledgement that is cleared (R211); in every other tick
module 6 finds what it waits for. -/
theorem tick_cases : (datapath s).chans = foundAt (datapath s).seq ∨
    s.seq = .s7 ∧ opField s.ir = 14#4 ∧ (datapath s).chans = .allIdle ∧ tick s = datapath s := by
  rw [datapath_seq]
  refine (datapath_chans_cases hh hd).imp_right fun ⟨hq, hop, hidle⟩ => ⟨hq, hop, hidle, ?_⟩
  exact sequencer_s7_of_allIdle ((datapath_seq s).trans hq) hidle

theorem tick_disciplined : (tick s).disciplined = true := by
  have hcases := tick_cases hh hd
  obtain ⟨hcode, hsrc, -⟩ := (disciplined_iff_of_running hh).mp hd
  rw [← datapath_halt] at hh
  rw [← datapath_seq, ← datapath_ir] at hcode
  rw [← datapath_seq, ← datapath_rwSrc] at hsrc
  obtain hf | ⟨hq, hop, hidle, htick⟩ := hcases
  · exact sequencer_disciplined hh hcode hsrc hf
  · have hc : (datapath s).chans ∈ chansAt (datapath s).seq (opField (datapath s).ir) := by
      rw [hidle, datapath_seq, datapath_ir, hq, hop]
      decide
    rw [htick]
    exact (disciplined_iff_of_running hh).mpr ⟨hcode, hsrc, hc⟩

/-- A request is made on a channel that module 6 finds `Idle` (R146). -/
theorem found_idle_of_tick_requested {f : Chans → Channel} (hf : IsChannel f) (hreq : f (tick s).chans = .requested) :
    f (datapath s).chans = .idle := by
  obtain hfound | ⟨-, -, hidle, -⟩ := tick_cases hh hd
  · rw [tick, sequencer_chans hfound] at hreq
    rw [hfound]
    exact hf.foundAt_of_leftBy hreq
  · rw [hidle, hf.allIdle]

/-- A halted machine has all channels `Idle` (R210), so a tick that makes a request does not halt. -/
theorem tick_running_of_requested {f : Chans → Channel} (hf : IsChannel f) (hreq : f (tick s).chans = .requested) :
    (tick s).halt = false := by
  by_contra hhalt
  rw [Bool.not_eq_false] at hhalt
  obtain ⟨-, -, -, hidle⟩ := (disciplined_iff_of_halt hhalt).mp (tick_disciplined hh hd)
  rw [hidle, hf.allIdle] at hreq
  exact absurd hreq (by decide)

/-- A request is served in the next tick, and the tick after clears the acknowledgement, since no request was made on
the channel while it stood. -/
theorem served_of_requested {f : Chans → Channel} (hf : IsChannel f) (hreq : f (tick s).chans = .requested) :
    f (datapath (tick s)).chans = .acknowledged ∧ f (datapath (tick (tick s))).chans = .idle := by
  have hack : f (datapath (tick s)).chans = .acknowledged := by
    rw [datapath_chans, hf.advance, hreq, Channel.advance_requested]
  have hnext : f (tick (tick s)).chans ≠ .requested := fun hreq' => by
    have hidle := found_idle_of_tick_requested (tick_running_of_requested hh hd hf hreq) (tick_disciplined hh hd)
      hf hreq'
    rw [hack] at hidle
    exact absurd hidle (by decide)
  exact ⟨hack, by rw [datapath_chans, hf.advance, Channel.advance_of_ne hnext]⟩

end Running

/-- Settles O14: the tables agree with those of R145 in every state. -/
theorem tickKeepsTheDiscipline : Obligations.TickKeepsTheDiscipline := fun _ => tick_disciplined

/-- Settles O16: the acknowledgement awaited is the one `foundAt` lists. -/
theorem awaitedAcknowledgementIsThere : Obligations.AwaitedAcknowledgementIsThere := by
  intro s hh hd
  have hfound {q : Seq} (hq : s.seq = q) (h14 : q = .s7 → opField s.ir ≠ 14#4) : (datapath s).chans = foundAt q :=
    hq ▸ datapath_chans_eq_foundAt hh hd (hq ▸ h14)
  refine ⟨?_, ?_, ?_, ?_, ?_⟩
  · rintro (hq | hq | hq) <;> exact congrArg Chans.pci (hfound hq nofun)
  · rintro (hq | hq) <;> exact congrArg Chans.pcs (hfound hq nofun)
  · exact fun hq h14 => congrArg Chans.pcs (hfound hq fun _ => h14)
  · exact fun hq => congrArg Chans.st (hfound hq nofun)
  · rintro (hq | hq) <;> exact congrArg Chans.rw (hfound hq nofun)

/-- Settles O18: the rule of one channel, for each of the four. -/
theorem requestIsServedOneTickLater : Obligations.RequestIsServedOneTickLater :=
  fun _ hh hd =>
    ⟨served_of_requested hh hd (.inl rfl), served_of_requested hh hd (.inr (.inl rfl)),
      served_of_requested hh hd (.inr (.inr (.inl rfl))), served_of_requested hh hd (.inr (.inr (.inr rfl)))⟩

/-! ## The invariant along steps -/

theorem inv_iff (s : State) : s.inv = true ↔ s.disciplined = true ∧ s.mem.wf = true := by
  rw [State.inv, Bool.and_eq_true]

theorem tick_mem_wf {s : State} (h : s.mem.wf = true) : (tick s).mem.wf = true := by
  rw [(tick_sameDatapath s).mem, datapath_mem]
  split
  · exact Memory.write_wf _ _ h
  · exact h

theorem clockTick_inv {s : State} (h : s.inv = true) : (clockTick s).inv = true := by
  cases hh : s.halt with
  | true => rwa [clockTick_of_halt hh]
  | false =>
    obtain ⟨hd, hm⟩ := (inv_iff s).mp h
    rw [clockTick_of_running hh]
    exact (inv_iff _).mpr ⟨tick_disciplined hh hd, tick_mem_wf hm⟩

theorem ticks_inv {s : State} (h : s.inv = true) (n : Nat) : (ticks n s).inv = true := by
  induction n with
  | zero => exact h
  | succ n ih =>
    rw [ticks_succ]
    exact clockTick_inv ih

/-- Every step is a whole number of ticks: those of its instruction at a fetch, one elsewhere. -/
theorem exists_ticks_of_step {s t : State} (h : step s = .next t) : ∃ n, t = ticks n s := by
  cases hh : s.halt with
  | true =>
    rw [step_of_halt hh] at h
    cases h
  | false =>
    cases hf : s.atFetch with
    | true =>
      obtain ⟨i, rest, hd⟩ := exists_decode_fetchBytes s
      rw [stepIsTheTicksOfItsInstruction s i rest hf hd] at h
      exact ⟨ticksOf i s, (Host.Outcome.next.inj h).symm⟩
    | false =>
      rw [step_eq_tick hh hf, ← clockTick_of_running hh] at h
      exact ⟨1, (Host.Outcome.next.inj h).symm⟩

/-- Settles O13: a step is a number of ticks, and every tick keeps the discipline and the canonical form. -/
theorem stepKeepsTheInvariant : Obligations.StepKeepsTheInvariant := by
  intro s t hs h
  obtain ⟨n, rfl⟩ := exists_ticks_of_step h
  exact ticks_inv hs n

end Sys2Proof.Machine

/-! # The control sequencer (41_control_sequencer.md) -/

namespace Sys2Proof.Machine

/-! ## The itinerary of a run

A tick is seen here as R145 lists it: the state the sequencer is in, and the `PC` module 4 leaves. The itinerary of a
path is put together from those of its phases, as the ticks are. -/

/-- The state of the sequencer in each of the next `n` ticks, with the `PC` after the tick. -/
def itinerary : Nat → State → List (Seq × Byte)
  | 0, _ => []
  | n + 1, s => (s.seq, (clockTick s).pc) :: itinerary n (clockTick s)

theorem itinerary_getElem? {n j : Nat} (s : State) (hj : j < n) :
    (itinerary n s)[j]? = some ((ticks j s).seq, (ticks (j + 1) s).pc) := by
  induction n generalizing j s with
  | zero => exact absurd hj (Nat.not_lt_zero j)
  | succ n ih =>
    cases j with
    | zero => rfl
    | succ j => exact ih (clockTick s) (Nat.lt_of_succ_lt_succ hj)

theorem itinerary_add (m n : Nat) (s : State) :
    itinerary (m + n) s = itinerary m s ++ itinerary n (ticks m s) := by
  induction m generalizing s with
  | zero => simp [itinerary, ticks]
  | succ m ih => rw [Nat.succ_add, itinerary, ih]; rfl

theorem itinerary_append {m n : Nat} {s t : State} {l l' : List (Seq × Byte)} (hl : itinerary m s = l)
    (ht : ticks m s = t) (hl' : itinerary n t = l') : itinerary (m + n) s = l ++ l' := by
  rw [itinerary_add, hl, ht, hl']

/-! ## The phases -/

section Phases
variable {t : State} (ht : t.halt = false)
include ht

theorem itinerary_operand : itinerary 4 (flight .s4 .allIdle t) =
    [(.s4, t.pc), (.s5, t.pc + 1), (.s6, t.pc + 1), (.s7, operandByte t)] := by
  simp only [itinerary]
  rw [clockTick_s4 ht, clockTick_s5 ht, clockTick_s6 (by exact ht) rfl, clockTick_s7 (by exact ht)]
  rfl

theorem itinerary_address (ha : needsTwo (opField t.ir) = true) : itinerary 3 (flight .s3 .allIdle t) =
    [(.s3, t.pc), (.s6, t.pc), (.s7, registerAddress (aReg t.ir) t)] := by
  simp only [itinerary]
  rw [clockTick_s3 ht ha, clockTick_s6 (by exact ht) rfl, clockTick_s7 (by exact ht)]
  rfl

theorem itinerary_commitPending : itinerary 2 (flight .s8 (Chans.onPcs .acknowledged) t) =
    [(.s8, t.pc), (.s20, t.pc)] := by
  simp only [itinerary]
  rw [clockTick_s8 ht, clockTick_s20 (by exact ht) rfl]
  rfl

theorem itinerary_storePending (hb : (needsTwo (opField t.ir) || needsOne (opField t.ir)) = true) :
    itinerary 2 (flight .s9 (Chans.onPcs .acknowledged) t) = [(.s9, t.pc), (.s10, t.pc)] := by
  simp only [itinerary]
  rw [clockTick_s9 ht, clockTick_s10 ht hb]
  rfl

theorem itinerary_retireNext_one {c : Chans} (hc : c.advance = .allIdle) (hop : hasSecond (opField t.ir) = false) :
    itinerary 3 (flight .s11 c t) = [(.s11, t.pc), (.s12, t.bm), (.s17, t.bm + 1)] := by
  simp only [itinerary]
  rw [clockTick_s11 ht hc, clockTick_s12_of_one (by exact ht) (by exact hop), clockTick_s17 (by exact ht) rfl]
  rfl

theorem itinerary_retireNext_two {c : Chans} (hc : c.advance = .allIdle) (hop : hasSecond (opField t.ir) = true) :
    itinerary 5 (flight .s11 c t) =
      [(.s11, t.pc), (.s12, t.bm), (.s13, t.bm + 1), (.s14, t.bm + 1), (.s17, t.bm + 2)] := by
  have hpc : t.bm + 2 = t.bm + 1 + 1 := (BitVec.add_assoc t.bm 1 1).symm
  simp only [itinerary]
  rw [clockTick_s11 ht hc, clockTick_s12_of_two (by exact ht) (by exact hop), clockTick_s13 (by exact ht),
    clockTick_s14 (by exact ht), clockTick_s17 (by exact ht) rfl, hpc]
  rfl

theorem itinerary_retireJump : itinerary 2 (flight .s15 (Chans.onPcs .acknowledged) t) =
    [(.s15, t.pc), (.s16, t.pval)] := by
  simp only [itinerary]
  rw [clockTick_s15 ht, clockTick_s16 (by exact ht)]
  rfl

theorem itinerary_halt : itinerary 1 (flight .s18 (Chans.onPcs .acknowledged) t) = [(.s18, t.pc)] := by
  simp only [itinerary]
  rw [clockTick_s18 ht]
  rfl

theorem itinerary_writeBackAlu (hsrc : t.rwSrc = .alu) : itinerary 2 (flight .s19 (Chans.onRw .requested) t) =
    [(.s19, t.pc), (.s17, t.pc + 1)] := by
  simp only [itinerary]
  rw [clockTick_s19 ht hsrc, clockTick_s17 (by exact ht) rfl]
  rfl

end Phases

/-! ## From the fetch -/

/-- Without a request outstanding the counter stands still. -/
theorem clockTick_pc_of_quiet {s : State} (hc : s.chans.advance = .allIdle) : (clockTick s).pc = s.pc := by
  cases hh : s.halt with
  | true => rw [clockTick_of_halt hh]
  | false =>
    rw [clockTick_of_running hh, tick_pc]
    exact congrArg State.pc (serviced_of_advance_eq_allIdle hc s)

section Instructions
variable {s : State} {o : Byte} (hf : s.atFetch = true) (ho : s.mem.read s.pc = o)
include hf

/-- In the first two ticks of an instruction the counter stands at its opcode byte. -/
theorem itinerary_two {q : Seq} (hq : (if isHigh (s.mem.read s.pc) then Seq.s2 else .s1) = q) :
    itinerary 2 s = [(.s0, s.pc), (q, s.pc)] := by
  obtain ⟨-, hs0, hrw, hpcs, hpci, hst⟩ := (atFetch_iff s).mp hf
  have hfirst := clockTick_fetch hf
  rw [hq] at hfirst
  have hseq : (clockTick s).seq = q := congrArg State.seq hfirst
  have hchans : (clockTick s).chans = .allIdle := congrArg State.chans hfirst
  have hpc : (clockTick s).pc = s.pc :=
    clockTick_pc_of_quiet ((Chans.advance_eq_allIdle_iff s.chans).mpr ⟨hrw, hpcs, hpci, hst⟩)
  have hpc' : (clockTick (clockTick s)).pc = (clockTick s).pc := clockTick_pc_of_quiet (congrArg Chans.advance hchans)
  simp only [itinerary, hpc', hpc, hseq, hs0]

include ho

theorem itinerary_alu (hlow : isHigh o = false) :
    itinerary 4 s = [(.s0, s.pc), (.s1, s.pc), (.s19, s.pc), (.s17, s.pc + 1)] := by
  have hh := halt_of_atFetch hf
  subst ho
  exact itinerary_append (m := 2) (n := 2) (itinerary_two hf (if_neg (Bool.eq_false_iff.mp hlow)))
    (ticks_two_of_low hf hlow) (itinerary_writeBackAlu (by exact hh) rfl)

/-- A path through the operand byte: the way there, then what follows the dispatch of state 7. -/
theorem itinerary_operand_path {op : BitVec 4} {q : Seq} {n : Nat} {l : List (Seq × Byte)} (hop : opField o = op)
    (hhigh : op.getLsbD 3 = true) (hind : isRegInd op = false)
    (hq : dispatchSeq op (settle (latchOpcode o s)).latchB = q)
    (hl : itinerary n (flight q (Chans.onPcs .acknowledged) (arrive o (operandByte s) s)) = l) :
    itinerary (6 + n) s = [(.s0, s.pc), (.s2, s.pc), (.s4, s.pc), (.s5, s.pc + 1), (.s6, s.pc + 1),
      (.s7, operandByte s)] ++ l := by
  have hh := halt_of_atFetch hf
  subst hop ho
  rw [← isHigh_eq] at hhigh
  have ht := ticks_two_of_high hf hhigh
  rw [hind, if_neg Bool.false_ne_true] at ht
  have harrive := itinerary_append (m := 2) (n := 4) (itinerary_two hf (if_pos hhigh)) ht
    (itinerary_operand (by exact hh))
  exact itinerary_append harrive (ticks_arrive_operand hf rfl hhigh hind hq) hl

/-- A path through register A. -/
theorem itinerary_register_path {op : BitVec 4} {q : Seq} {n : Nat} {l : List (Seq × Byte)} (hop : opField o = op)
    (hhigh : op.getLsbD 3 = true) (hind : isRegInd op = true)
    (hq : dispatchSeq op (settle (latchOpcode o s)).latchB = q)
    (hl : itinerary n (flight q (Chans.onPcs .acknowledged) (arrive o (registerAddress (aReg o) s) s)) = l) :
    itinerary (5 + n) s = [(.s0, s.pc), (.s2, s.pc), (.s3, s.pc), (.s6, s.pc),
      (.s7, registerAddress (aReg o) s)] ++ l := by
  have hh := halt_of_atFetch hf
  subst hop ho
  rw [← isHigh_eq] at hhigh
  have ht := ticks_two_of_high hf hhigh
  rw [hind, if_pos rfl] at ht
  have harrive := itinerary_append (m := 2) (n := 3) (itinerary_two hf (if_pos hhigh)) ht
    (itinerary_address (by exact hh) (by exact needsTwo_of_isRegInd hind))
  exact itinerary_append harrive (ticks_arrive_register hf rfl hhigh hind hq) hl

end Instructions

/-! ## The table of R145 -/

/-- The rows of the table are the itineraries of the instructions. -/
theorem itinerary_eq_zip {s : State} {i : Instr} (hf : s.atFetch = true) (ho : s.mem.read s.pc = i.opcode) :
    itinerary (ticksOf i s) s = (pathOf i s).zip (counterPathOf i s) := by
  have hh := halt_of_atFetch hf
  cases i with
  | and a b | or a b | xor a b | add a b | sub a b | notb u b | shiftb u b | lshiftb u b =>
    exact itinerary_alu hf ho (by simp [isHigh_eq, Instr.opcode])
  | load u b k =>
    have hop : opField (Instr.load u b k).opcode = 8#4 := opField_byteR ..
    exact itinerary_operand_path (n := 7) (q := .s8) hf ho hop rfl rfl rfl <|
      itinerary_append (itinerary_commitPending (by exact hh)) (ticks_commitPending (by exact hh)) <|
        itinerary_retireNext_two (by exact hh) rfl (by simp [hop, hasSecond])
  | wrt u b k =>
    have hop : opField (Instr.wrt u b k).opcode = 9#4 := opField_byteR ..
    have hb : (needsTwo (opField (Instr.wrt u b k).opcode) || needsOne (opField (Instr.wrt u b k).opcode)) = true := by
      simp [hop, needsOne]
    exact itinerary_operand_path (n := 7) (q := .s9) hf ho hop rfl rfl rfl <|
      itinerary_append (itinerary_storePending (by exact hh) (by exact hb))
        (ticks_storePending (by exact hh) (by exact rfl) (by exact hb)) <|
        itinerary_retireNext_two (by exact hh) rfl (by simp [hop, hasSecond])
  | jmpz u b k =>
    have hop : opField (Instr.jmpz u b k).opcode = 10#4 := opField_byteR ..
    have hq := dispatchSeq_jmpz s hop
    rw [hop, show bReg (Instr.jmpz u b k).opcode = b from bReg_byteR ..] at hq
    simp only [ticksOf, pathOf, counterPathOf]
    by_cases hz : s.regs.get b = 0
    · simp only [if_pos hz] at hq ⊢
      exact itinerary_operand_path (n := 2) hf ho hop rfl rfl hq (itinerary_retireJump (by exact hh))
    · simp only [if_neg hz] at hq ⊢
      exact itinerary_operand_path (n := 5) hf ho hop rfl rfl hq <|
        itinerary_retireNext_two (by exact hh) rfl (by simp [hop, hasSecond])
  | jmp u k =>
    have hop : opField (Instr.jmp u k).opcode = 11#4 := opField_byteN ..
    exact itinerary_operand_path (n := 2) (q := .s15) hf ho hop rfl rfl rfl (itinerary_retireJump (by exact hh))
  | loadl a b =>
    have hop : opField (Instr.loadl a b).opcode = 12#4 := opField_byteRR ..
    have ha : aReg (Instr.loadl a b).opcode = a := aReg_byteRR ..
    have hpath := itinerary_register_path (n := 5) (q := .s8) hf ho hop rfl rfl rfl <|
      itinerary_append (itinerary_commitPending (by exact hh)) (ticks_commitPending (by exact hh)) <|
        itinerary_retireNext_one (by exact hh) rfl (by simp [hop, hasSecond])
    rwa [ha] at hpath
  | wrtl a b =>
    have hop : opField (Instr.wrtl a b).opcode = 13#4 := opField_byteRR ..
    have ha : aReg (Instr.wrtl a b).opcode = a := aReg_byteRR ..
    have hb : (needsTwo (opField (Instr.wrtl a b).opcode) || needsOne (opField (Instr.wrtl a b).opcode)) = true := by
      simp [hop, needsTwo]
    have hpath := itinerary_register_path (n := 5) (q := .s9) hf ho hop rfl rfl rfl <|
      itinerary_append (itinerary_storePending (by exact hh) (by exact hb))
        (ticks_storePending (by exact hh) (by exact rfl) (by exact hb)) <|
        itinerary_retireNext_one (by exact hh) rfl (by simp [hop, hasSecond])
    rwa [ha] at hpath
  | reserved14 u =>
    have hop : opField (Instr.reserved14 u).opcode = 14#4 := opField_byteN ..
    exact itinerary_operand_path (n := 0) (q := .s7) hf ho hop rfl rfl rfl rfl
  | halt u =>
    have hop : opField (Instr.halt u).opcode = 15#4 := opField_byteN ..
    exact itinerary_operand_path (n := 1) (q := .s18) hf ho hop rfl rfl rfl (itinerary_halt (by exact hh))

theorem pathOf_length (i : Instr) (s : State) : (pathOf i s).length = ticksOf i s := by
  cases i with
  | jmpz u b k =>
    simp only [pathOf, ticksOf]
    split <;> rfl
  | _ => rfl

theorem counterPathOf_length (i : Instr) (s : State) : (counterPathOf i s).length = ticksOf i s := by
  cases i with
  | jmpz u b k =>
    simp only [counterPathOf, ticksOf]
    split <;> rfl
  | _ => rfl

/-- Tick by tick, both columns of the table. -/
theorem paths_getElem? {s : State} {i : Instr} {j : Nat} (hf : s.atFetch = true) (ho : s.mem.read s.pc = i.opcode)
    (hj : j < ticksOf i s) :
    (pathOf i s)[j]? = some (ticks j s).seq ∧ (counterPathOf i s)[j]? = some (ticks (j + 1) s).pc := by
  have hget := itinerary_getElem? s hj
  rw [itinerary_eq_zip hf ho] at hget
  exact List.getElem?_zip_eq_some.mp hget

theorem ticks_seq_of_pathOf {s : State} {i : Instr} {j : Nat} {q : Seq} (hf : s.atFetch = true)
    (ho : s.mem.read s.pc = i.opcode) (hq : (pathOf i s)[j]? = some q) : (ticks j s).seq = q := by
  obtain ⟨hj, -⟩ := List.getElem?_eq_some_iff.mp hq
  obtain ⟨hseq, -⟩ := paths_getElem? hf ho (pathOf_length i s ▸ hj)
  exact Option.some.inj (hseq.symm.trans hq)

theorem ticks_pc_of_counterPathOf {s : State} {i : Instr} {j : Nat} {p : Byte} (hf : s.atFetch = true)
    (ho : s.mem.read s.pc = i.opcode) (hp : (counterPathOf i s)[j]? = some p) : (ticks (j + 1) s).pc = p := by
  obtain ⟨hj, -⟩ := List.getElem?_eq_some_iff.mp hp
  obtain ⟨-, hpc⟩ := paths_getElem? hf ho (counterPathOf_length i s ▸ hj)
  exact Option.some.inj (hpc.symm.trans hp)

/-! ## Stuck on code 14 (46_halt_reserved.md R211) -/

/-- `State.stuck` in its clauses. -/
theorem stuck_iff (s : State) : s.stuck = true ↔ s.halt = false ∧ s.seq = .s7 ∧ opField s.ir = 14#4 ∧
    s.rw ≠ .requested ∧ s.pcs ≠ .requested ∧ s.pci ≠ .requested ∧ s.st ≠ .requested := by
  simp [State.stuck, and_assoc]

/-- A tick of a stuck machine clears the acknowledgements and settles the routed fields, and does nothing else. -/
theorem clockTick_of_stuck {s : State} (h : s.stuck = true) : clockTick s = flight .s7 .allIdle s := by
  obtain ⟨hh, hq, -, hrw, hpcs, hpci, hst⟩ := (stuck_iff s).mp h
  have hc : s.chans.advance = .allIdle := (Chans.advance_eq_allIdle_iff _).mpr ⟨hrw, hpcs, hpci, hst⟩
  have hd : datapath s = flight .s7 .allIdle s := by
    rw [datapath_eq_flight, hq, hc, serviced_of_advance_eq_allIdle hc]
  rw [clockTick_of_running hh, tick, hd]
  exact sequencer_s7_of_allIdle rfl rfl

theorem flight_s7_stuck {s : State} {c : Chans} (hh : s.halt = false) (hop : opField s.ir = 14#4)
    (hc : c.advance = .allIdle) : (flight .s7 c s).stuck = true :=
  (stuck_iff _).mpr ⟨hh, rfl, hop, (Chans.advance_eq_allIdle_iff c).mp hc⟩

/-- A stuck machine stays stuck, with the same architectural state. -/
theorem ticks_of_stuck {s : State} (h : s.stuck = true) (n : Nat) :
    (ticks n s).stuck = true ∧ (ticks n s).arch = s.arch := by
  induction n with
  | zero => exact ⟨h, rfl⟩
  | succ n ih =>
    obtain ⟨hstuck, harch⟩ := ih
    obtain ⟨hh, -, hop, -⟩ := (stuck_iff _).mp hstuck
    rw [ticks_succ, clockTick_of_stuck hstuck]
    exact ⟨flight_s7_stuck hh hop rfl, harch⟩

/-- After the six ticks of its row, code 14 is stuck with `PC` at the byte after the opcode byte. -/
theorem ticks_reserved14_stuck {s : State} {o : Byte} (hf : s.atFetch = true) (ho : s.mem.read s.pc = o)
    (hop : opField o = 14#4) : (ticks 6 s).stuck = true ∧ (ticks 6 s).pc = operandByte s := by
  rw [ticks_reserved14 hf ho hop]
  exact ⟨flight_s7_stuck (c := .onPcs .acknowledged) (s := visitFollowing o s) (halt_of_atFetch hf) hop rfl, rfl⟩

/-- The last entry of the row of code 14 goes on for ever. -/
theorem reserved14_stays {s : State} {u : BitVec 4} {j : Nat} (hf : s.atFetch = true)
    (ho : s.mem.read s.pc = (Instr.reserved14 u).opcode) (hj : 5 ≤ j) :
    (ticks j s).seq = .s7 ∧ (ticks (j + 1) s).pc = operandByte s := by
  obtain ⟨hstuck, hpc⟩ := ticks_reserved14_stuck hf ho (opField_byteN ..)
  obtain rfl | ⟨n, rfl⟩ : j = 5 ∨ ∃ n, j = 6 + n := by
    obtain rfl | hlt := Nat.eq_or_lt_of_le hj
    · exact .inl rfl
    · exact .inr (Nat.exists_eq_add_of_le hlt)
  · exact ⟨ticks_seq_of_pathOf hf ho rfl, hpc⟩
  · have hseq (m : Nat) : (ticks (6 + m) s).seq = .s7 := by
      obtain ⟨-, hq, -⟩ := (stuck_iff _).mp (ticks_of_stuck hstuck m).1
      rwa [ticks_add]
    have hsame : (ticks (6 + (n + 1)) s).pc = (ticks 6 s).pc := by
      rw [ticks_add]
      exact congrArg Arch.pc (ticks_of_stuck hstuck (n + 1)).2
    exact ⟨hseq n, hsame.trans hpc⟩

/-- Settles O10: the rows of the table are the itineraries put together from the phases, and after its row code 14 is
stuck. -/
theorem pathOfEachInstruction : Obligations.PathOfEachInstruction := by
  intro s i rest hf hd
  have ho := fetch_opcode hd
  refine ⟨pathOf_length i s, fun j q => ticks_seq_of_pathOf hf ho, fun j p => ticks_pc_of_counterPathOf hf ho, ?_⟩
  rintro u rfl j hj
  exact reserved14_stays hf ho hj

/-! ## Requests (R146) -/

/-- No row of R145 asks for a set and an increment together. -/
theorem not_set_and_increment_of_mem_chansAt {q : Seq} {op : BitVec 4} {c : Chans} (hc : c ∈ chansAt q op) :
    ¬ (c.pcs = .requested ∧ c.pci = .requested) := by
  revert c
  cases q <;> revert op <;> decide

/-- What the instruction before may leave at a fetch: one acknowledgement of the counter. -/
theorem fetch_chans_of_mem_chansAt {op : BitVec 4} {c : Chans} (hc : c ∈ chansAt .s0 op) :
    c.rw = .idle ∧ c.st = .idle ∧ c.pcs ≠ .requested ∧ c.pci ≠ .requested ∧
      ¬ (c.pcs = .acknowledged ∧ c.pci = .acknowledged) := by
  revert c op
  decide

/-- Settles O17: the requests by the rule of one channel, the rest from the channels the discipline lists. -/
theorem requestsAreMadeOnIdleChannels : Obligations.RequestsAreMadeOnIdleChannels := by
  intro s hh hd
  obtain ⟨-, -, hc⟩ := (disciplined_iff_of_running hh).mp hd
  refine ⟨found_idle_of_tick_requested hh hd (.inl rfl), found_idle_of_tick_requested hh hd (.inr (.inl rfl)),
    found_idle_of_tick_requested hh hd (.inr (.inr (.inl rfl))),
    found_idle_of_tick_requested hh hd (.inr (.inr (.inr rfl))), not_set_and_increment_of_mem_chansAt hc, ?_⟩
  intro hq
  rw [hq] at hc
  obtain ⟨hrw, hst, hpcs, hpci, hone⟩ := fetch_chans_of_mem_chansAt hc
  have hfound : (datapath s).chans = foundAt .s0 := by
    rw [← hq]
    exact datapath_chans_eq_foundAt hh hd (hq ▸ nofun)
  exact ⟨hrw, hst, hpcs, hpci, hone, hfound⟩

/-! ## What module 6 leaves alone (R120, R142) -/

theorem await_of_ne {c : Channel} (h : c ≠ .acknowledged) (t s : State) : await c t s = s := by
  cases c with
  | idle => rfl
  | requested => rfl
  | acknowledged => exact absurd rfl h

/-- Settles O19: the rule of each of these states is an `await`. -/
theorem waitingStateHolds : Obligations.WaitingStateHolds := by
  intro s
  refine ⟨?_, ?_, ?_, ?_⟩
  · rintro (hq | hq | hq) hc <;> simp only [sequencer, hq, await_of_ne hc]
  · rintro (hq | hq | hq) hc <;> simp only [sequencer, hq, await_of_ne hc]
  · intro hq hc
    simp only [sequencer, hq, await_of_ne hc]
  · rintro (hq | hq) hc <;> simp only [sequencer, hq, await_of_ne hc]

/-- Settles O20: module 6 leaves the fields of modules 1 to 5 as they are. -/
theorem sequencerWritesControlStateAlone : Obligations.SequencerWritesControlStateAlone := by
  intro s
  obtain ⟨hregs, hpc, hmem, hlatchA, hlatchB, haluOut, hrdata⟩ := sequencer_sameDatapath s
  exact ⟨hregs, hpc, hmem, hlatchA, hlatchB, haluOut, hrdata⟩

/-! ## The micro state after an ALU instruction (R145, 42_alu.md R160) -/

/-- The instructions with a code below 8 are the ALU instructions. -/
theorem exec_of_low {i : Instr} (h : (opField i.opcode).toNat < 8) (s : State) :
    ∃ b v, exec i s = .next (retireAlu i.opcode b v s) := by
  cases i with
  | and a b | or a b | xor a b | add a b | sub a b | notb u b | shiftb u b | lshiftb u b => exact ⟨_, _, rfl⟩
  | _ => simp [Instr.opcode] at h

theorem retireAlu_parkedAt (i : Instr) (b : Reg) (v : Byte) (s : State) :
    ParkedAt i .s0 .idle .acknowledged (retireAlu i.opcode b v s) :=
  ⟨rfl, rfl, rfl, rfl, rfl, rfl⟩

/-- Every ALU code routes register B, in its last tick too. -/
theorem retireAlu_latchB {o : Byte} (h : (opField o).toNat < 8) (b : Reg) (v : Byte) (s : State) :
    (retireAlu o b v s).latchB = (retireAlu o b v s).regs.get (bReg o) :=
  if_pos ((needsTwo_or_needsOne_iff (opField o)).mpr (.inl (by omega)))

/-- Settles O42: an ALU instruction ends with `retireAlu`, and its code is one that routes register B. -/
theorem aluInstructionParksTheSequencer : Obligations.AluInstructionParksTheSequencer := by
  intro i s hlow
  obtain ⟨b, v, hexec⟩ := exec_of_low hlow s
  exact ⟨_, hexec, retireAlu_parkedAt i b v s, rfl, retireAlu_latchB hlow b v s, rfl⟩

end Sys2Proof.Machine

/-! # The ALU instructions (42_alu.md) -/

namespace Sys2Proof

/-- The number of an opcode byte put together from its fields (30_encoding.md R61). -/
theorem opcodeByte_eq_ofNat (op : BitVec 4) (x y : BitVec 2) :
    opcodeByte op x y = BitVec.ofNat 8 (op.toNat * 16 + x.toNat * 4 + y.toNat) := by
  revert op x y
  decide

end Sys2Proof

namespace Sys2Proof.Machine

/-! ## The codes 8 to 15 (R170) -/

theorem aluResult_of_high {op : BitVec 4} (h : 8 ≤ op.toNat) (order : SubOrder) (x y : Byte) :
    aluResult order op x y = 0 := by
  obtain ⟨n, hn⟩ : ∃ n, op.toNat = n + 8 := ⟨_, (Nat.sub_add_cancel h).symm⟩
  rw [aluResult, hn]
  rfl

/-- A write-back is pending in two states of R145 alone. -/
theorem seq_of_rw_requested {q : Seq} {op : BitVec 4} {c : Chans} (hc : c ∈ chansAt q op)
    (hrw : c.rw = .requested) : q = .s19 ∨ q = .s20 := by
  revert c
  cases q <;> revert op <;> decide

theorem lt_eight_of_mem_codesAt_s19 {n : Nat} (h : n ∈ codesAt .s19) : n < 8 := by
  revert n
  decide

/-- Settles O44: a pending write-back of the ALU stands in state 19, which codes 0 to 7 alone reach; the other state
with a pending write-back, 20, has the other source. -/
theorem unassignedArithmeticIsZeroAndNeverCommitted : Obligations.UnassignedArithmeticIsZeroAndNeverCommitted := by
  refine ⟨fun order op x y h => aluResult_of_high h order x y, fun s hh hd hrw halu => ?_⟩
  obtain ⟨hcode, hsrc, hc⟩ := (disciplined_iff_of_running hh).mp hd
  obtain hq | hq := seq_of_rw_requested hc hrw
  · rw [hq] at hcode
    exact lt_eight_of_mem_codesAt_s19 hcode
  · rw [hq, halu] at hsrc
    exact absurd hsrc (by decide)

/-! ## The effect of an ALU instruction (R160) -/

section Effect
variable {i : Instr} {b : Reg} {v w : Byte} {s t : State}

/-- The path of an ALU instruction writes register B and `PC`, and nothing else that `AluEffect` lists. -/
theorem aluEffect_of_exec {o : Byte} (h : exec i s = .next (retireAlu o b v s)) : AluEffect i b v s :=
  ⟨_, h, Regs.get_set_same .., fun _ hr => Regs.get_set_ne _ _ hr, rfl, fun _ => rfl, rfl, rfl, rfl, rfl, rfl⟩

theorem AluEffect.of_eq (h : AluEffect i b v s) (hv : v = w) : AluEffect i b w s := hv ▸ h

/-- Register B after the instruction, in whatever next state it answers. -/
theorem AluEffect.get_of_exec (h : AluEffect i b v s) (ht : exec i s = .next t) : t.regs.get b = v := by
  obtain ⟨t', ht', hv, -⟩ := h
  obtain rfl : t' = t := Host.Outcome.next.inj (ht'.symm.trans ht)
  exact hv

end Effect

section Meanings
variable (a b : Reg) (u : BitVec 2) (s : State)

theorem and_effect : AluEffect (.and a b) b (s.regs.get a &&& s.regs.get b) s := aluEffect_of_exec rfl
theorem or_effect : AluEffect (.or a b) b (s.regs.get a ||| s.regs.get b) s := aluEffect_of_exec rfl
theorem xor_effect : AluEffect (.xor a b) b (s.regs.get a ^^^ s.regs.get b) s := aluEffect_of_exec rfl
theorem add_effect : AluEffect (.add a b) b (s.regs.get a + s.regs.get b) s := aluEffect_of_exec rfl
theorem sub_effect : AluEffect (.sub a b) b (subBy Config.subOrder (s.regs.get a) (s.regs.get b)) s :=
  aluEffect_of_exec rfl
theorem notb_effect : AluEffect (.notb u b) b (~~~s.regs.get b) s := aluEffect_of_exec rfl
theorem shiftb_effect : AluEffect (.shiftb u b) b (shiftRight1 (s.regs.get b)) s := aluEffect_of_exec rfl
theorem lshiftb_effect : AluEffect (.lshiftb u b) b (shiftLeft1 (s.regs.get b)) s := aluEffect_of_exec rfl

end Meanings

/-! ## The two-register operations (R161 to R165) -/

/-- Settles O34: conjunction is idempotent, and zero absorbs. -/
theorem andWritesTheConjunction : Obligations.AndWritesTheConjunction := by
  intro a b s
  have h := and_effect a b s
  refine ⟨opcodeByte_eq_ofNat 0#4 .., h, ?_, ?_, fun ha hb => h.of_eq (congrArg₂ (· &&& ·) ha hb)⟩
  · rintro rfl
    exact h.of_eq BitVec.and_self
  · rintro (ha | hb)
    · exact h.of_eq (by rw [ha]; exact BitVec.zero_and)
    · exact h.of_eq (by rw [hb]; exact BitVec.and_zero)

/-- Settles O35: disjunction is idempotent, and zero is neutral. -/
theorem orWritesTheDisjunction : Obligations.OrWritesTheDisjunction := by
  intro a b s
  have h := or_effect a b s
  refine ⟨opcodeByte_eq_ofNat 1#4 .., h, ?_, fun hb => h.of_eq (hb ▸ BitVec.or_zero),
    fun ha hb => h.of_eq (congrArg₂ (· ||| ·) ha hb)⟩
  rintro rfl
  exact h.of_eq BitVec.or_self

/-- Settles O36: a byte exclusive-or itself is zero. -/
theorem xorWritesTheExclusiveOr : Obligations.XorWritesTheExclusiveOr := by
  intro a b s
  have h := xor_effect a b s
  refine ⟨opcodeByte_eq_ofNat 2#4 .., h, ?_, fun ha hb => h.of_eq (congrArg₂ (· ^^^ ·) ha hb)⟩
  rintro rfl
  exact h.of_eq BitVec.xor_self

/-- Settles O37: the sum of bytes is the sum modulo 256; a byte plus itself is its left shift, and 255 is `-1`. -/
theorem addWritesTheSumModulo256 : Obligations.AddWritesTheSumModulo256 := by
  intro a b s
  have h := add_effect a b s
  have hsum {x y : Byte} (ha : s.regs.get a = x) (hb : s.regs.get b = y) : AluEffect (.add a b) b (x + y) s :=
    h.of_eq (congrArg₂ (· + ·) ha hb)
  refine ⟨opcodeByte_eq_ofNat 3#4 .., h.of_eq (add_eq_ofNat ..), ?_, ?_, hsum, hsum, hsum⟩
  · rintro rfl
    exact h.of_eq (shiftLeft1_eq_add_self _).symm
  · intro ha
    exact h.of_eq (by rw [ha, BitVec.add_comm, add_255_eq_sub_one])

/-- Settles O38: the two orders are two cases, but for a byte minus itself, where `subBy_self` covers both. -/
theorem subWritesTheDifferenceInTheOpenOrder : Obligations.SubWritesTheDifferenceInTheOpenOrder := by
  intro a b s
  have h := sub_effect a b s
  refine ⟨opcodeByte_eq_ofNat 4#4 .., h.of_eq ?_, ?_, fun ha => h.of_eq ?_, fun hb => h.of_eq ?_,
    fun ha hb => h.of_eq ?_⟩
  · cases Config.subOrder with
    | aMinusB => exact sub_eq_ofInt ..
    | bMinusA => exact sub_eq_ofInt ..
  · rintro rfl
    exact h.of_eq (subBy_self ..)
  · rw [ha]
    cases Config.subOrder with
    | aMinusB => exact BitVec.zero_sub _
    | bMinusA => exact BitVec.sub_zero _
  · rw [hb]
    cases Config.subOrder with
    | aMinusB => exact BitVec.sub_zero _
    | bMinusA => exact BitVec.zero_sub _
  · rw [ha, hb]
    cases Config.subOrder with
    | aMinusB => rfl
    | bMinusA => rfl

/-! ## The one-register operations (R166 to R168) -/

/-- Settles O39: the complement is the difference from 255, and it is its own inverse. -/
theorem notbWritesTheComplement : Obligations.NotbWritesTheComplement := by
  intro u b s
  have h := notb_effect b u s
  have hval {x : Byte} (hb : s.regs.get b = x) : AluEffect (.notb u b) b (~~~x) s := hb ▸ h
  refine ⟨opcodeByte_eq_ofNat 5#4 .., h.of_eq (not_eq_255_sub _), hval, hval, fun t ht => ?_, hval⟩
  have htwice : ~~~t.regs.get b = s.regs.get b := by rw [h.get_of_exec ht, BitVec.not_not]
  exact (notb_effect b u t).of_eq htwice

theorem shiftRight1_eq_ofNat (y : Byte) : shiftRight1 y = BitVec.ofNat 8 (y.toNat / 2) := by
  rw [← shiftRight1_toNat, BitVec.ofNat_toNat, BitVec.setWidth_eq]

theorem shiftLeft1_eq_ofNat (y : Byte) : shiftLeft1 y = BitVec.ofNat 8 (2 * y.toNat) := by
  rw [shiftLeft1_eq_add_self, add_eq_ofNat, Nat.two_mul]

/-- Settles O40: the shift right by 1 is the half; the cases of the rule are its values. -/
theorem shiftbHalvesRegisterB : Obligations.ShiftbHalvesRegisterB := by
  intro u b s
  have h := shiftb_effect b u s
  have hval {x : Byte} (hb : s.regs.get b = x) : AluEffect (.shiftb u b) b (shiftRight1 x) s := hb ▸ h
  exact ⟨opcodeByte_eq_ofNat 6#4 .., h.of_eq (shiftRight1_eq_ofNat _), hval, hval, hval, hval, hval⟩

/-- Settles O41: the shift left by 1 is the double modulo 256; the cases of the rule are its values. -/
theorem lshiftbDoublesRegisterB : Obligations.LshiftbDoublesRegisterB := by
  intro u b s
  have h := lshiftb_effect b u s
  have hval {x : Byte} (hb : s.regs.get b = x) : AluEffect (.lshiftb u b) b (shiftLeft1 x) s := hb ▸ h
  exact ⟨opcodeByte_eq_ofNat 7#4 .., h.of_eq (shiftLeft1_eq_ofNat _), hval, hval, hval, hval⟩

end Sys2Proof.Machine

/-! # The memory instructions (43_load_wrt.md, 45_loadl_wrtl.md) -/

namespace Sys2Proof.Machine

theorem retireNext_parkedAt {i : Instr} {s : State} (n : Byte) (h : s.ir = i.opcode) :
    ParkedAt i .s0 .idle .acknowledged (retireNext n s) :=
  ⟨rfl, h, rfl, rfl, rfl, rfl⟩

/-- The whole effect of a load `i`, `n` bytes long, of the byte at `ea` to register `b` (R181): one statement for both
addressing modes. -/
def LoadEffect (i : Instr) (b : Reg) (ea n : Byte) (s : State) : Prop :=
  ∃ t, exec i s = .next t ∧ t.regs.get b = s.mem.read ea ∧ SameRegsBut b s t ∧ t.pc = s.pc + n ∧ SameMemory s t ∧
    t.halt = s.halt ∧ t.bm = s.pc ∧ t.paddr = ea ∧ t.pval = s.mem.read ea ∧ t.rwSrc = .ext ∧ t.pcsVal = s.pc ∧
    ParkedAt i .s0 .idle .acknowledged t

/-- The whole effect of a store `i`, `n` bytes long, of register `b` at `ea` (R182): one statement for both addressing
modes. -/
def StoreEffect (i : Instr) (b : Reg) (ea n : Byte) (s : State) : Prop :=
  ∃ t, exec i s = .next t ∧ t.mem.read ea = s.regs.get b ∧ (∀ a, a ≠ ea → t.mem.read a = s.mem.read a) ∧
    SameRegs s t ∧ t.pc = s.pc + n ∧ t.halt = s.halt ∧ t.bm = s.pc ∧ t.paddr = ea ∧ t.pval = s.mem.read ea ∧
    t.rwSrc = s.rwSrc ∧ t.pcsVal = s.pc ∧ ParkedAt i .s0 .idle .acknowledged t

section Effect
variable {i : Instr} {b : Reg} {ea n : Byte} {s : State}

/-- The path of a load changes the register file by its one write-back, and memory not at all. -/
theorem loadEffect_of_exec (h : exec i s = .next (retireNext n (commitPending b (visit i.opcode ea s)))) :
    LoadEffect i b ea n s := by
  have harch := load_arch s i.opcode n b ea
  have hregs := congrArg Arch.regs harch
  have hmem := congrArg Arch.mem harch
  refine ⟨_, h, ?loaded, ?others, congrArg Arch.pc harch, ?memory, congrArg Arch.halt harch, rfl, rfl, rfl, rfl, rfl,
    retireNext_parkedAt n rfl⟩
  case loaded => exact (congrArg (Regs.get · b) hregs).trans (Regs.get_set_same ..)
  case others => exact fun r hr => (congrArg (Regs.get · r) hregs).trans (Regs.get_set_ne _ _ hr)
  case memory => exact fun a => congrArg (Memory.read · a) hmem

/-- The path of a store changes memory by its one store, and the register file not at all. -/
theorem storeEffect_of_exec (h : exec i s = .next (retireNext n (storePending b (visit i.opcode ea s)))) :
    StoreEffect i b ea n s := by
  have harch := store_arch s i.opcode n b ea
  have hregs := congrArg Arch.regs harch
  have hmem := congrArg Arch.mem harch
  refine ⟨_, h, ?stored, ?others, ?registers, congrArg Arch.pc harch, congrArg Arch.halt harch, rfl, rfl, rfl, rfl, rfl,
    retireNext_parkedAt n rfl⟩
  case stored => exact (congrArg (Memory.read · ea) hmem).trans (Memory.read_write_same ..)
  case others => exact fun a ha => (congrArg (Memory.read · a) hmem).trans (Memory.read_write_ne _ _ ha)
  case registers => exact fun r => congrArg (Regs.get · r) hregs

end Effect

/-! ## The absolute address (R180) -/

/-- Settles O45: `load` is the two-byte load from `k`. -/
theorem loadReadsTheAbsoluteAddress : Obligations.LoadReadsTheAbsoluteAddress := by
  intro u b k s
  have h : LoadEffect (.load u b k) b (absoluteAddress k) 2 s := loadEffect_of_exec rfl
  exact h

/-- Settles O46: `wrt` is the two-byte store at `k`; that byte is still the old one when state 7 reads it. -/
theorem wrtStoresAtTheAbsoluteAddress : Obligations.WrtStoresAtTheAbsoluteAddress := by
  intro u b k s
  have h : StoreEffect (.wrt u b k) b (absoluteAddress k) 2 s := storeEffect_of_exec rfl
  exact h

end Sys2Proof.Machine

/-! # Control transfer (44_jmpz_jmp.md) -/

namespace Sys2Proof.Machine

/-- When the counter is all of the architectural state that moves, registers, memory and halt flag are framed. -/
theorem frame_of_arch_eq_with_pc {s t : State} {p : Byte} (h : t.arch = { s.arch with pc := p }) :
    t.pc = p ∧ SameRegs s t ∧ SameMemory s t ∧ t.halt = s.halt :=
  ⟨congrArg Arch.pc h, fun r => congrArg (fun a => a.regs.get r) h, fun x => congrArg (fun a => a.mem.read x) h,
    congrArg Arch.halt h⟩

theorem retireJump_parkedAt {i : Instr} {s : State} (h : s.ir = i.opcode) :
    ParkedAt i .s0 .acknowledged .idle (retireJump s) :=
  ⟨rfl, h, rfl, rfl, rfl, rfl⟩

/-- The whole effect of a jump `i` with operand byte `k` (R190), taken or not: the counter goes to `p`, its set value
is left at `v`, and the two counter channels are left at `pcs` and `pci`. -/
def JumpEffect (i : Instr) (k p v : Byte) (pcs pci : Channel) (s : State) : Prop :=
  ∃ t, exec i s = .next t ∧ t.pc = p ∧ SameRegs s t ∧ SameMemory s t ∧ t.halt = s.halt ∧ t.bm = s.pc ∧ t.paddr = k ∧
    t.pval = s.mem.read k ∧ t.rwSrc = s.rwSrc ∧ t.pcsVal = v ∧ ParkedAt i .s0 pcs pci t

section Effect
variable {i : Instr} {k n : Byte} {s : State}

/-- The path of a jump that is taken ends with the set of the counter to the byte at `k` (R136, R137). -/
theorem jumpEffect_of_exec_taken (h : exec i s = .next (retireJump (visit i.opcode k s))) :
    JumpEffect i k (s.mem.read k) (s.mem.read k) .acknowledged .idle s := by
  obtain ⟨hpc, hregs, hmem, hhalt⟩ := frame_of_arch_eq_with_pc (jump_arch s i.opcode k)
  exact ⟨_, h, hpc, hregs, hmem, hhalt, rfl, rfl, rfl, rfl, rfl, retireJump_parkedAt rfl⟩

/-- The path of a jump that is not taken goes back to the bookmark and ends with an increment (R132 to R135, R138). -/
theorem jumpEffect_of_exec_notTaken (h : exec i s = .next (retireNext n (visit i.opcode k s))) :
    JumpEffect i k (s.pc + n) s.pc .idle .acknowledged s := by
  obtain ⟨hpc, hregs, hmem, hhalt⟩ := frame_of_arch_eq_with_pc (fallThrough_arch s i.opcode n k)
  exact ⟨_, h, hpc, hregs, hmem, hhalt, rfl, rfl, rfl, rfl, rfl, retireNext_parkedAt n rfl⟩

end Effect

section Meanings
variable {u : BitVec 2} {b : Reg} {k : Byte} {s : State}

theorem exec_jmpz_of_zero (hz : s.regs.get b = 0) :
    exec (.jmpz u b k) s = .next (retireJump (visit (Instr.jmpz u b k).opcode k s)) :=
  congrArg _ (if_pos hz)

theorem exec_jmpz_of_ne_zero (hz : s.regs.get b ≠ 0) :
    exec (.jmpz u b k) s = .next (retireNext 2 (visit (Instr.jmpz u b k).opcode k s)) :=
  congrArg _ (if_neg hz)

end Meanings

/-- Settles O50: register B decides between the path of a taken jump and the path past a two-byte instruction. -/
theorem jmpzJumpsThroughMemoryIfZero : Obligations.JmpzJumpsThroughMemoryIfZero := by
  intro u b k s
  by_cases hz : s.regs.get b = 0
  · simp only [if_pos hz]
    exact jumpEffect_of_exec_taken (exec_jmpz_of_zero hz)
  · simp only [if_neg hz]
    exact jumpEffect_of_exec_notTaken (exec_jmpz_of_ne_zero hz)

/-- Settles O51: `jmp` is the jump that is always taken. -/
theorem jmpJumpsThroughMemory : Obligations.JmpJumpsThroughMemory := by
  intro u k s
  have h : JumpEffect (.jmp u k) k (s.mem.read k) (s.mem.read k) .acknowledged .idle s := jumpEffect_of_exec_taken rfl
  exact h

end Sys2Proof.Machine

/-! # The address in a register (45_loadl_wrtl.md R200) -/

namespace Sys2Proof.Machine

/-- Settles O47: `loadl` is the one-byte load from the address in register A, which is read before register B is
written, so the case `a = b` is no exception. -/
theorem loadlReadsTheAddressInRegisterA : Obligations.LoadlReadsTheAddressInRegisterA := by
  intro a b s
  have h : LoadEffect (.loadl a b) b (registerAddress a s) 1 s := loadEffect_of_exec rfl
  exact h

/-- Settles O48: `wrtl` is the one-byte store at the address in register A; that byte is still the old one when state 7
reads it. -/
theorem wrtlStoresAtTheAddressInRegisterA : Obligations.WrtlStoresAtTheAddressInRegisterA := by
  intro a b s
  have h : StoreEffect (.wrtl a b) b (registerAddress a s) 1 s := storeEffect_of_exec rfl
  exact h

end Sys2Proof.Machine

/-! # `halt` and code 14 (46_halt_reserved.md) -/

namespace Sys2Proof.Machine

/-! ## Stuck is for ever (R211, 60_exceptions.md R233) -/

/-- A stuck machine stands in state 7, so no step of it is a fetch. -/
theorem atFetch_of_stuck {s : State} (h : s.stuck = true) : s.atFetch = false := by
  obtain ⟨-, hs7, -⟩ := (stuck_iff s).mp h
  rw [Bool.eq_false_iff, ne_eq, atFetch_iff]
  rintro ⟨-, hs0, -⟩
  exact absurd (hs7.symm.trans hs0) (by decide)

theorem step_of_stuck {s : State} (h : s.stuck = true) : step s = .next (ticks 1 s) := by
  obtain ⟨hh, -⟩ := (stuck_iff s).mp h
  rw [step_eq_tick hh (atFetch_of_stuck h), ← clockTick_of_running hh]
  rfl

/-- Settles O54: `ticks_of_stuck` for any number of ticks, and a step is one of them. -/
theorem stuckIsForEver : Obligations.StuckIsForEver := by
  intro s h
  have hticks (n : Nat) : (ticks n s).arch = s.arch ∧ (ticks n s).stuck = true := (ticks_of_stuck h n).symm
  exact ⟨hticks, ticks 1 s, step_of_stuck h, hticks 1⟩

/-! ## The end of the path that visits the byte after the opcode byte (30_encoding.md R70) -/

section FollowingByte
variable (i : Instr) (q : Seq) (pcs : Channel) (s : State)

theorem visitFollowing_parkedAt : ParkedAt i q pcs .idle (settle (park q pcs .idle (visitFollowing i.opcode s))) :=
  ⟨rfl, rfl, rfl, rfl, rfl, rfl⟩

/-- What the path leaves in the bookmark and the two pending latches, and that it does not choose a write-back source
(R123, R125, R128). -/
theorem visitFollowing_pending (o : Byte) :
    let t := settle (park q pcs .idle (visitFollowing o s))
    t.bm = s.pc ∧ t.paddr = s.mem.read (s.pc + 1) ∧ t.pval = s.mem.read (s.mem.read (s.pc + 1)) ∧ t.rwSrc = s.rwSrc :=
  ⟨rfl, rfl, rfl, rfl⟩

end FollowingByte

/-- Settles O52: the path up to state 18 is framed but for the counter, and raising the flag changes no other field. -/
theorem haltEndsTheRun : Obligations.HaltEndsTheRun := by
  intro u s
  obtain ⟨hpc, hregs, hmem, -⟩ := frame_of_arch_eq_with_pc (visitFollowing_arch s (Instr.halt u).opcode .s18 .idle)
  obtain ⟨hbm, hpaddr, hpval, hsrc⟩ := visitFollowing_pending .s18 .idle s (Instr.halt u).opcode
  exact ⟨_, rfl, rfl, hpc, hregs, hmem, hbm, hpaddr, hpval, hsrc, visitFollowing_parkedAt (.halt u) .s18 .idle s⟩

/-- Settles O53: the same path stops in state 7, where code 14 is stuck because no request is outstanding. -/
theorem code14GetsStuck : Obligations.Code14GetsStuck := by
  intro u s hh
  obtain ⟨hpc, hregs, hmem, hhalt⟩ :=
    frame_of_arch_eq_with_pc (visitFollowing_arch s (Instr.reserved14 u).opcode .s7 .acknowledged)
  obtain ⟨hbm, hpaddr, hpval, hsrc⟩ := visitFollowing_pending .s7 .acknowledged s (Instr.reserved14 u).opcode
  have hop : opField (Instr.reserved14 u).opcode = 14#4 := opField_byteN ..
  have hstuck := flight_s7_stuck (c := .onPcs .acknowledged) (s := visitFollowing (Instr.reserved14 u).opcode s) hh
    hop rfl
  exact ⟨_, rfl, hpc, hregs, hmem, hhalt.trans hh, hbm, hpaddr, hpval, hsrc, hstuck,
    visitFollowing_parkedAt (.reserved14 u) .s7 .acknowledged s⟩

end Sys2Proof.Machine

/-! # How a run goes (60_exceptions.md R233, 70_reset_and_hazards.md R240) -/

namespace Sys2Proof.Machine

/-! ## The launch -/

/-- A launched machine stands at its first fetch (R29). -/
theorem launch_atFetch (l : Launch) : (State.launch l).atFetch = true :=
  (atFetch_iff _).mpr ⟨rfl, rfl, nofun, nofun, nofun, nofun⟩

/-- The fetch tick latches the byte at the counter (R121). -/
theorem clockTick_fetch_ir {s : State} (hf : s.atFetch = true) : (clockTick s).ir = s.mem.read s.pc :=
  congrArg State.ir (clockTick_fetch hf)

/-- Settles O31: the reset edge is a launch with the memory as it stands, and a launched machine fetches at 0. -/
theorem resetEdgeRestartsAtZeroAndKeepsMemory : Obligations.ResetEdgeRestartsAtZeroAndKeepsMemory :=
  fun _ _ => ⟨rfl, rfl, clockTick_fetch_ir (launch_atFetch _)⟩

/-! ## One instruction leads to a fetch, to the halt, or to the stuck state -/

/-- An ALU instruction ends at the next fetch. -/
theorem retireAlu_atFetch (o : Byte) (b : Reg) (v : Byte) {s : State} (h : s.halt = false) :
    (retireAlu o b v s).atFetch = true := by
  rw [atFetch_iff]
  simp [retireAlu, h]

/-- A jump ends at the fetch of its target. -/
theorem retireJump_atFetch {s : State} (h : s.halt = false) : (retireJump s).atFetch = true := by
  rw [atFetch_iff]
  simp [retireJump, h]

/-- Of the sixteen meanings, fourteen come back to a fetch; `halt` halts and code 14 sticks. -/
theorem exec_cases (i : Instr) {s : State} (hh : s.halt = false) :
    ∃ t, exec i s = .next t ∧ (t.atFetch = true ∨ t.halt = true ∨ t.stuck = true) := by
  cases i with
  | load | wrt | loadl | wrtl => exact ⟨_, rfl, .inl (retireNext_atFetch _ hh)⟩
  | jmpz u b k =>
    refine ⟨_, rfl, .inl ?_⟩
    split
    · exact retireJump_atFetch hh
    · exact retireNext_atFetch 2 hh
  | jmp => exact ⟨_, rfl, .inl (retireJump_atFetch hh)⟩
  | reserved14 u =>
    obtain ⟨t, ht, -, -, -, -, -, -, -, -, hstuck, -⟩ := code14GetsStuck u s hh
    exact ⟨t, ht, .inr (.inr hstuck)⟩
  | halt => exact ⟨_, rfl, .inr (.inl rfl)⟩
  | _ => exact ⟨_, rfl, .inl (retireAlu_atFetch _ _ _ hh)⟩

theorem ticksOf_pos (i : Instr) (s : State) : 0 < ticksOf i s := by
  rw [← pathOf_length, List.length_pos_iff]
  cases i with
  | jmpz =>
    simp only [pathOf]
    split <;> exact List.cons_ne_nil _ _
  | _ => exact List.cons_ne_nil _ _

/-- From a fetch the ticks of the instruction lead to the next fetch, to the halt, or to the stuck state. -/
theorem exists_ticks_of_atFetch {s : State} (hf : s.atFetch = true) : ∃ k, 0 < k ∧
    ((ticks k s).atFetch = true ∨ (ticks k s).halt = true ∨ (ticks k s).stuck = true) := by
  obtain ⟨i, rest, hd⟩ := exists_decode_fetchBytes s
  obtain ⟨t, ht, hcases⟩ := exec_cases i (halt_of_atFetch hf)
  have hstep := stepIsTheTicksOfItsInstruction s i rest hf hd
  rw [step_eq_exec hf hd, ht] at hstep
  obtain rfl := Host.Outcome.next.inj hstep
  exact ⟨ticksOf i s, ticksOf_pos i s, hcases⟩

/-! ## The three ways of a run (R233) -/

section Run
variable {s : State} {m n : Nat}

theorem halt_of_le (h : (ticks n s).halt = true) (hle : n ≤ m) : (ticks m s).halt = true := by
  obtain ⟨k, rfl⟩ := Nat.exists_eq_add_of_le hle
  rwa [ticks_add, ticks_of_halt h]

theorem stuck_of_le (h : (ticks n s).stuck = true) (hle : n ≤ m) : (ticks m s).stuck = true := by
  obtain ⟨k, rfl⟩ := Nat.exists_eq_add_of_le hle
  rw [ticks_add]
  exact (ticks_of_stuck h k).1

theorem halt_of_stuck (h : s.stuck = true) : s.halt = false := ((stuck_iff s).mp h).1

/-- Both ends of a run are final, and no state is both, so a run does not come to both. -/
theorem not_stuck_of_halt (h : (ticks n s).halt = true) : ¬ (ticks m s).stuck = true := fun hstuck => by
  have hhalt := halt_of_le h (le_max_left n m)
  rw [halt_of_stuck (stuck_of_le hstuck (le_max_right n m))] at hhalt
  exact Bool.false_ne_true hhalt

theorem not_atFetch_of_halt (h : (ticks n s).halt = true) (hle : n ≤ m) : ¬ (ticks m s).atFetch = true :=
  fun hf => by
    have hhalt := halt_of_le h hle
    rw [halt_of_atFetch hf] at hhalt
    exact Bool.false_ne_true hhalt

theorem not_atFetch_of_stuck (h : (ticks n s).stuck = true) (hle : n ≤ m) : ¬ (ticks m s).atFetch = true :=
  Bool.eq_false_iff.mp (atFetch_of_stuck (stuck_of_le h hle))

/-- A run that comes to neither end is at a fetch after every number of ticks: each fetch leads to a later one. -/
theorem exists_atFetch_of_endless (hf : s.atFetch = true) (hhalt : ¬ ∃ n, (ticks n s).halt = true)
    (hstuck : ¬ ∃ n, (ticks n s).stuck = true) (n : Nat) : ∃ m, n ≤ m ∧ (ticks m s).atFetch = true := by
  induction n with
  | zero => exact ⟨0, le_rfl, hf⟩
  | succ n ih =>
    obtain ⟨m, hle, hm⟩ := ih
    obtain ⟨k, hk, hcases⟩ := exists_ticks_of_atFetch hm
    rw [← ticks_add] at hcases
    obtain hnext | hend | hend := hcases
    · exact ⟨m + k, by omega, hnext⟩
    · exact absurd ⟨m + k, hend⟩ hhalt
    · exact absurd ⟨m + k, hend⟩ hstuck

end Run

/-- Settles O12: the two ends exclude each other and every later fetch; a run without an end goes from fetch to
fetch. -/
theorem aRunGoesOneOfThreeWays : Obligations.ARunGoesOneOfThreeWays := by
  intro l run halts sticks runsOn
  by_cases hhalt : halts
  · obtain ⟨n, hn⟩ := hhalt
    refine .inl ⟨⟨n, hn⟩, fun ⟨_, hm⟩ => not_stuck_of_halt hn hm, fun hruns => ?_⟩
    obtain ⟨m, hle, hf⟩ := hruns n
    exact not_atFetch_of_halt hn hle hf
  · by_cases hstuck : sticks
    · refine .inr (.inl ⟨hhalt, hstuck, fun hruns => ?_⟩)
      obtain ⟨n, hn⟩ := hstuck
      obtain ⟨m, hle, hf⟩ := hruns n
      exact not_atFetch_of_stuck hn hle hf
    · exact .inr (.inr ⟨hhalt, hstuck, exists_atFetch_of_endless (launch_atFetch l) hhalt hstuck⟩)

end Sys2Proof.Machine

/-! # Micro state at a fetch and the ticks after it (70_reset_and_hazards.md R241)

Two runs from fetches with the same architectural state go side by side. After the fetch tick they share the registers,
`PC`, memory, `HALT`, `IR`, the sequencer's state and the channels, and the micro latches that a later tick of the path
still reads; every other latch is written before it is read. -/

namespace Sys2Proof.Machine

/-! ## The latches that are read -/

/-- The micro latches written in an earlier tick that module 6 still reads from the state `q` on are the same: the
bookmark up to state 11, the pending address in state 6, the pending operand value in the states 8 and 15. -/
def SamePending (q : Seq) (s t : State) : Prop :=
  match q with
  | .s3 | .s4 | .s5 | .s7 | .s9 | .s10 | .s11 | .s20 => s.bm = t.bm
  | .s6 => s.bm = t.bm ∧ s.paddr = t.paddr
  | .s8 => s.bm = t.bm ∧ s.pval = t.pval
  | .s15 => s.pval = t.pval
  | _ => True

/-- What modules 2, 3 and 5 leave for module 6 is the same, the latches as far as the code loads them. -/
structure SameRouted (s t : State) : Prop where
  latchA : needsTwo (opField s.ir) = true → s.latchA = t.latchA
  latchB : (needsTwo (opField s.ir) || needsOne (opField s.ir)) = true → s.latchB = t.latchB
  aluOut : s.aluOut = t.aluOut
  rdata : s.rdata = t.rdata

/-- Two machines inside the same instruction, under the same sequencer state and channels: what they share decides
every later tick. A value asked to be set or written back counts as long as it is `Requested`. -/
structure Alongside (s t : State) : Prop where
  arch : s.arch = t.arch
  ir : s.ir = t.ir
  seq : s.seq = t.seq
  chans : s.chans = t.chans
  pending : SamePending s.seq s t
  counter : s.pcs = .requested → s.pcsVal = t.pcsVal
  writeBack : s.rw = .requested → writeBackValue s = writeBackValue t

/-- The ALU reads latch `A` for the codes that load it alone, and latch `B` likewise (R96, R97). -/
theorem aluResult_congr {order : SubOrder} {op : BitVec 4} {a a' b b' : Byte} (ha : needsTwo op = true → a = a')
    (hb : (needsTwo op || needsOne op) = true → b = b') : aluResult order op a b = aluResult order op a' b' := by
  simp only [needsTwo_iff] at ha
  simp only [needsTwo_or_needsOne_iff] at hb
  unfold aluResult
  split
  case h_9 => rfl
  case h_1 | h_2 | h_3 | h_4 | h_5 => rw [ha (by omega), hb (by omega)]
  all_goals rw [hb (by omega)]

/-- The dispatch reads latch `B` for `jmpz` alone (R128). -/
theorem dispatchSeq_congr {op : BitVec 4} {b b' : Byte} (h : (needsTwo op || needsOne op) = true → b = b') :
    dispatchSeq op b = dispatchSeq op b' := by
  rw [needsTwo_or_needsOne_iff] at h
  unfold dispatchSeq
  split
  case h_5 => rw [h (by omega)]
  all_goals rfl

theorem successor_congr {q : Seq} {op : BitVec 4} {b b' : Byte}
    (h : (needsTwo op || needsOne op) = true → b = b') : successor q op b = successor q op b' := by
  cases q with
  | s7 => exact dispatchSeq_congr h
  | _ => rfl

/-- The codes that walk state 3 load latch `A`. -/
theorem needsTwo_of_mem_codesAt_s3 {op : BitVec 4} (h : op.toNat ∈ codesAt .s3) : needsTwo op = true := by
  revert op
  decide

/-- A store is pending under the codes 9 and 13 alone, which load latch `B` (R96). -/
theorem loads_latchB_of_st_requested {q : Seq} {op : BitVec 4} {c : Chans} (hc : c ∈ chansAt q op)
    (hcode : op.toNat ∈ codesAt q) (hst : c.st = .requested) : (needsTwo op || needsOne op) = true := by
  revert c
  cases q <;> revert op <;> decide

/-! ## Modules 1 to 5 -/

theorem Channel.advance_ne_requested (c : Channel) : c.advance ≠ .requested := by
  cases c <;> decide

/-- Modules 1 to 5 leave no request behind (R93). -/
theorem datapath_not_requested (s : State) {f : Chans → Channel} (hf : IsChannel f) :
    f (datapath s).chans ≠ .requested := by
  rw [datapath_chans, hf.advance]
  exact (f s.chans).advance_ne_requested

section Datapath
variable {s t : State} (h : Alongside s t)
include h

theorem Alongside.regs_eq : s.regs = t.regs := congrArg Arch.regs h.arch
theorem Alongside.pc_eq : s.pc = t.pc := congrArg Arch.pc h.arch
theorem Alongside.mem_eq : s.mem = t.mem := congrArg Arch.mem h.arch
theorem Alongside.halt_eq : s.halt = t.halt := congrArg Arch.halt h.arch

theorem Alongside.datapath_regs_eq : (datapath s).regs = (datapath t).regs := by
  rw [datapath_regs, datapath_regs, servicedRegs, servicedRegs, ← h.chans, ← h.regs_eq, ← h.ir]
  split
  next hrw => rw [h.writeBack hrw]
  next => rfl

theorem Alongside.datapath_pc_eq : (datapath s).pc = (datapath t).pc := by
  have hpcs : s.pcs = t.pcs := congrArg Chans.pcs h.chans
  have hpci : s.pci = t.pci := congrArg Chans.pci h.chans
  rw [datapath_pc, datapath_pc, counterAfter_eq, counterAfter_eq, ← hpcs, ← hpci, ← h.pc_eq]
  congr 1
  split
  next hset => exact h.counter hset
  next => rfl

theorem Alongside.datapath_ir_eq : (datapath s).ir = (datapath t).ir := by
  rw [datapath_ir, datapath_ir, h.ir]

theorem Alongside.datapath_seq_eq : (datapath s).seq = (datapath t).seq := by
  rw [datapath_seq, datapath_seq, h.seq]

theorem Alongside.datapath_chans_eq : (datapath s).chans = (datapath t).chans := by
  rw [datapath_chans, datapath_chans, h.chans]

theorem Alongside.datapath_latchA_eq (ha : needsTwo (opField s.ir) = true) :
    (datapath s).latchA = (datapath t).latchA := by
  rw [← (tick_sameDatapath s).latchA, ← (tick_sameDatapath t).latchA, tick_latchA, tick_latchA, ← h.ir, if_pos ha,
    if_pos ha, (tick_sameDatapath s).regs, (tick_sameDatapath t).regs, h.datapath_regs_eq]

theorem Alongside.datapath_latchB_eq (hb : (needsTwo (opField s.ir) || needsOne (opField s.ir)) = true) :
    (datapath s).latchB = (datapath t).latchB := by
  rw [← (tick_sameDatapath s).latchB, ← (tick_sameDatapath t).latchB, tick_latchB, tick_latchB, ← h.ir, if_pos hb,
    if_pos hb, (tick_sameDatapath s).regs, (tick_sameDatapath t).regs, h.datapath_regs_eq]

/-- The store is of the same byte at the same address, since it is made under a code that loads latch `B`. -/
theorem Alongside.datapath_mem_eq (hh : s.halt = false) (hd : s.disciplined = true) :
    (datapath s).mem = (datapath t).mem := by
  have hst : s.st = t.st := congrArg Chans.st h.chans
  obtain ⟨hcode, -, hc⟩ := (disciplined_iff_of_running hh).mp hd
  rw [datapath_mem, datapath_mem, ← hst, ← h.mem_eq, ← h.datapath_pc_eq]
  split
  next hreq => rw [h.datapath_latchB_eq (loads_latchB_of_st_requested hc hcode hreq)]
  next => rfl

theorem Alongside.datapath_arch_eq (hh : s.halt = false) (hd : s.disciplined = true) :
    (datapath s).arch = (datapath t).arch := by
  rw [State.arch, State.arch, h.datapath_regs_eq, h.datapath_pc_eq, h.datapath_mem_eq hh hd, datapath_halt,
    datapath_halt, h.halt_eq]

theorem Alongside.datapath_routed (hh : s.halt = false) (hd : s.disciplined = true) :
    SameRouted (datapath s) (datapath t) where
  latchA := by
    rw [datapath_ir]
    exact h.datapath_latchA_eq
  latchB := by
    rw [datapath_ir]
    exact h.datapath_latchB_eq
  aluOut := by
    rw [← (tick_sameDatapath s).aluOut, ← (tick_sameDatapath t).aluOut, tick_aluOut, tick_aluOut,
      (tick_sameDatapath s).latchA, (tick_sameDatapath s).latchB, (tick_sameDatapath t).latchA,
      (tick_sameDatapath t).latchB, ← h.ir]
    exact aluResult_congr h.datapath_latchA_eq h.datapath_latchB_eq
  rdata := by
    rw [datapath_rdata, datapath_rdata, h.datapath_mem_eq hh hd, h.datapath_pc_eq]

/-- Modules 1 to 5 write none of the pending latches. -/
theorem Alongside.datapath_pending : SamePending (datapath s).seq (datapath s) (datapath t) := by
  rw [datapath_seq, datapath_eq_flight, datapath_eq_flight]
  exact h.pending

/-- No channel is `Requested` once its module has run. -/
theorem Alongside.after_datapath (hh : s.halt = false) (hd : s.disciplined = true) :
    Alongside (datapath s) (datapath t) where
  arch := h.datapath_arch_eq hh hd
  ir := h.datapath_ir_eq
  seq := h.datapath_seq_eq
  chans := h.datapath_chans_eq
  pending := h.datapath_pending
  counter := fun hreq => absurd hreq (datapath_not_requested s (.inr (.inl rfl)))
  writeBack := fun hreq => absurd hreq (datapath_not_requested s (.inl rfl))

end Datapath

/-! ## Module 6 -/

/-- The bookmark and the pending operand value are all that is read after the dispatch (R129 to R137). -/
theorem samePending_dispatchSeq (op : BitVec 4) (b : Byte) {s t : State} (hbm : s.bm = t.bm)
    (hpval : s.pval = t.pval) : SamePending (dispatchSeq op b) s t := by
  unfold dispatchSeq
  split
  case h_1 | h_2 => exact ⟨hbm, hpval⟩
  case h_3 | h_4 | h_8 => exact hbm
  case h_5 =>
    split
    · exact hpval
    · exact hbm
  case h_6 => exact hpval
  case h_7 => trivial

section Sequencer
variable {d e : State} (h : Alongside d e) (hr : SameRouted d e) (hf : d.chans = foundAt d.seq)
include h

include hf in
theorem Alongside.found_right : e.chans = foundAt e.seq := by
  rw [← h.chans, ← h.seq, hf]

theorem Alongside.sequencer_arch_eq : (sequencer d).arch = (sequencer e).arch := by
  have hd := sequencer_sameDatapath d
  have he := sequencer_sameDatapath e
  rw [State.arch, State.arch, hd.regs, hd.pc, hd.mem, sequencer_halt, he.regs, he.pc, he.mem, sequencer_halt,
    h.regs_eq, h.pc_eq, h.mem_eq, h.halt_eq, h.seq]

include hf in
theorem Alongside.sequencer_chans_eq : (sequencer d).chans = (sequencer e).chans := by
  rw [sequencer_chans hf, sequencer_chans (h.found_right hf), h.seq]

include hr in
theorem Alongside.sequencer_ir_eq : (sequencer d).ir = (sequencer e).ir := by
  by_cases hq : d.seq = .s0
  · have hq' : e.seq = .s0 := h.seq ▸ hq
    simp only [sequencer, hq, hq', hr.rdata]
  · rw [sequencer_ir hq, sequencer_ir (h.seq ▸ hq), h.ir]

include hr hf in
theorem Alongside.sequencer_seq_eq : (sequencer d).seq = (sequencer e).seq := by
  rw [sequencer_seq hf, sequencer_seq (h.found_right hf), ← h.sequencer_ir_eq hr, ← h.seq]
  by_cases hq : d.seq = .s0
  · rw [hq]
    rfl
  · rw [sequencer_ir hq]
    exact successor_congr hr.latchB

include hr hf in
/-- State by state: what the next state's pending latches are was pending in this one, or is latched in it from the
counter, from the read data or from latch `A`. -/
theorem Alongside.sequencer_pending (hcode : (opField d.ir).toNat ∈ codesAt d.seq) :
    SamePending (sequencer d).seq (sequencer d) (sequencer e) := by
  have hpend := h.pending
  rw [eq_place d, eq_place e, h.found_right hf, hf, ← h.seq]
  generalize d.seq = q at hcode hpend
  cases q with
  | s0 | s12 => dsimp only [sequencer, State.place, foundAt]; split <;> trivial
  | s2 => dsimp only [sequencer, State.place, foundAt]; split <;> exact h.pc_eq
  | s3 => exact ⟨hpend, hr.latchA (needsTwo_of_mem_codesAt_s3 hcode)⟩
  | s5 => exact ⟨hpend, hr.rdata⟩
  | s6 => exact hpend.1
  | s7 => exact samePending_dispatchSeq _ _ hpend hr.rdata
  | s8 => exact hpend.1
  | s4 | s9 | s10 | s20 => exact hpend
  | s11 | s1 | s13 | s14 | s15 | s16 | s17 | s18 | s19 => trivial

include hf in
/-- A set is requested in the states 6, 11 and 15, of a value that was pending (R127, R132, R136). -/
theorem Alongside.sequencer_counter (hreq : (sequencer d).pcs = .requested) :
    (sequencer d).pcsVal = (sequencer e).pcsVal := by
  have hpend := h.pending
  rw [eq_place d, hf] at hreq ⊢
  rw [eq_place e, h.found_right hf, ← h.seq]
  generalize d.seq = q at hpend hreq ⊢
  cases q with
  | s6 => exact hpend.2
  | s11 | s15 => exact hpend
  | _ => cases hreq

include hr hf in
/-- A write-back is requested in state 1, of what the ALU computed, and in state 8, of the pending value (R122,
R129). -/
theorem Alongside.sequencer_writeBack (hreq : (sequencer d).rw = .requested) :
    writeBackValue (sequencer d) = writeBackValue (sequencer e) := by
  have hpend := h.pending
  rw [eq_place d, hf] at hreq ⊢
  rw [eq_place e, h.found_right hf, ← h.seq]
  generalize d.seq = q at hpend hreq ⊢
  cases q with
  | s1 => exact hr.aluOut
  | s8 => exact hpend.2
  | _ => cases hreq

include hr hf in
/-- Module 6 keeps the two alongside when it finds the channels of its state. -/
theorem Alongside.after_sequencer (hcode : (opField d.ir).toNat ∈ codesAt d.seq) :
    Alongside (sequencer d) (sequencer e) where
  arch := h.sequencer_arch_eq
  ir := h.sequencer_ir_eq hr
  seq := h.sequencer_seq_eq hr hf
  chans := h.sequencer_chans_eq hf
  pending := h.sequencer_pending hr hf hcode
  counter := h.sequencer_counter hf
  writeBack := h.sequencer_writeBack hr hf

end Sequencer

/-! ## The two runs side by side -/

section Runs
variable {s t : State}

/-- Where module 6 does not find the channels of its state it waits on in state 7, in both runs (R142, R211). -/
theorem Alongside.after_tick (h : Alongside s t) (hh : s.halt = false) (hd : s.disciplined = true) :
    Alongside (tick s) (tick t) := by
  have hdata := h.after_datapath hh hd
  obtain ⟨hcode, -⟩ := (disciplined_iff_of_running hh).mp hd
  rw [← datapath_ir, ← datapath_seq] at hcode
  obtain hf | ⟨hq, -, hidle, hs⟩ := tick_cases hh hd
  · exact hdata.after_sequencer (h.datapath_routed hh hd) hf hcode
  · have ht : tick t = datapath t :=
      sequencer_s7_of_allIdle (by rw [datapath_seq, ← h.seq, hq]) (by rw [← hdata.chans, hidle])
    rwa [hs, ht]

theorem Alongside.after_clockTick (h : Alongside s t) (hd : s.disciplined = true) :
    Alongside (clockTick s) (clockTick t) := by
  cases hh : s.halt with
  | true => rwa [clockTick_of_halt hh, clockTick_of_halt (h.halt_eq ▸ hh)]
  | false =>
    rw [clockTick_of_running hh, clockTick_of_running (h.halt_eq ▸ hh)]
    exact h.after_tick hh hd

theorem clockTick_disciplined (hd : s.disciplined = true) : (clockTick s).disciplined = true := by
  cases hh : s.halt with
  | true => rwa [clockTick_of_halt hh]
  | false =>
    rw [clockTick_of_running hh]
    exact tick_disciplined hh hd

theorem ticks_disciplined (hd : s.disciplined = true) (n : Nat) : (ticks n s).disciplined = true := by
  induction n with
  | zero => exact hd
  | succ n ih =>
    rw [ticks_succ]
    exact clockTick_disciplined ih

theorem Alongside.after_ticks (h : Alongside s t) (hd : s.disciplined = true) (n : Nat) :
    Alongside (ticks n s) (ticks n t) := by
  induction n with
  | zero => exact h
  | succ n ih =>
    rw [ticks_succ, ticks_succ]
    exact ih.after_clockTick (ticks_disciplined hd n)

/-! ## From the fetch -/

/-- The fetch tick leads into the discipline, whatever acknowledgements the channels held (R121). -/
theorem clockTick_fetch_disciplined (hf : s.atFetch = true) : (clockTick s).disciplined = true := by
  have htick : clockTick s = sequencer (flight .s0 .allIdle s) := clockTick_fetch hf
  have hh : s.halt = false := halt_of_atFetch hf
  rw [htick]
  exact sequencer_disciplined (d := flight .s0 .allIdle s) hh (mem_codesAt_s0 _) rfl rfl

/-- The fetch tick latches the same opcode byte in both runs, and nothing is pending after it. -/
theorem alongside_of_fetch (hs : s.atFetch = true) (ht : t.atFetch = true) (hst : s.arch = t.arch) :
    Alongside (clockTick s) (clockTick t) := by
  have hread : s.mem.read s.pc = t.mem.read t.pc := congrArg (fun a : Arch => a.mem.read a.pc) hst
  rw [clockTick_fetch hs, clockTick_fetch ht, ← hread]
  refine ⟨hst, rfl, rfl, rfl, ?_, nofun, nofun⟩
  dsimp only [State.place]
  split <;> trivial

end Runs

/-- Settles O33: after the fetch tick the two runs are alongside each other, and every tick keeps them so. -/
theorem microStateIsUnobservableAtEveryTick : Obligations.MicroStateIsUnobservableAtEveryTick := by
  intro s t hs ht hst n
  cases n with
  | zero => exact hst
  | succ n => exact ((alongside_of_fetch hs ht hst).after_ticks (clockTick_fetch_disciplined hs) n).arch

end Sys2Proof.Machine
